-- ==== Sys2Proof/Word.lean ====
section
/-! DEFINITION. The data types of the ring-link protocol engine: every message field and every host
register is 8 bits wide, the host bus has a 10-bit address (spec/00_scope.md R8), and a line is
either low or high (spec/00_scope.md R18). -/

namespace Sys2Proof

/-- One byte: the width of every message field and host register (R8). -/
abbrev Byte := BitVec 8

/-- A host register address (R8, R55). -/
abbrev Addr := BitVec 10

/-- The level of a line: `true` is 1 (high), `false` is 0 (low); 1 is the idle level (R18, R78). -/
abbrev Level := Bool

end Sys2Proof
end

