-- ==== Sys2Proof/Config.lean ====
section
/-! DEFINITION. The implementation parameters of spec/00_scope.md R7. "A model takes each as an
argument": here they are the plain-data field `build` of the machine's state, which no step
changes, so that a statement about every state is a statement about every build. -/

namespace Sys2Proof

/-- The build parameters of one RLPE (R7). -/
structure Build where
  /-- `NODE_ID`: this node's address byte. -/
  nodeId : Byte
  /-- `MAX_LEN`: the largest payload length accepted. -/
  maxLen : Nat
  /-- `RETRY_MAX`: the total number of send attempts for one message. -/
  retryMax : Nat
  /-- `ACK_TIMEOUT`: cycles a sender waits for the acknowledgement. -/
  ackTimeout : Nat
  /-- `EDGE_TIMEOUT`: cycles a receiver waits for each clock level. -/
  edgeTimeout : Nat
  /-- `T_DELAY`: hold after each line transition of a start or a stop condition, in cycles. -/
  tDelay : Nat
  /-- `T_UNIT`: the timing unit of the bit cell, in cycles. -/
  tUnit : Nat
  /-- `T_SETTLE`: settle delay after a receive and around a relay, in cycles. -/
  tSettle : Nat
  /-- `SYNC_STAGES`: depth of each input synchroniser. -/
  syncStages : Nat
  deriving DecidableEq, Repr

/-- The test-vector parameter set `TV` for the node with id byte `n` (R9). It is a test
configuration, not a claim about any built RLPE. -/
def Build.tv (n : Byte) : Build where
  nodeId := n
  maxLen := 8
  retryMax := 3
  ackTimeout := 16
  edgeTimeout := 16
  tDelay := 1
  tUnit := 1
  tSettle := 2
  syncStages := 2

/-- The build of `State.reset`. `RETRY_MAX` and `SYNC_STAGES` have their normative defaults 20 and 2
(R7). DESIGN CHOICE, unsafe (notes/assumptions/1.md): R7 leaves the others OPEN, and this one
instance takes the values of `TV` and the id '1' for them. No statement rests on these values. -/
def Build.reference : Build :=
  { Build.tv 0x31#8 with retryMax := 20 }

end Sys2Proof
end

