-- ==== Sys2Proof/Syntax.lean ====
section
/-! DEFINITION. The operations of the RLPE: "There is no instruction set. The 'instructions' of
this spec are (a) the host commands written to the CMD register and (b) the one autonomous
operation, message reception" (spec/00_scope.md R3). One constructor per row of
spec/opcode_table.json. No command word carries an operand field (spec/30_encoding.md R75). -/

namespace Sys2Proof

/-- The operations of the RLPE (R3, R73, R77), one per row of spec/opcode_table.json. -/
inductive Instr where
  /-- NOP: completes at once (R98). -/
  | nop
  /-- SEND_MSG: `MsgSend` of the TX message (R128). -/
  | sendMsg
  /-- PHY_START: `PhyStart` (R103). -/
  | phyStart
  /-- PHY_STOP: `PhyStop` (R104). -/
  | phyStop
  /-- SEND_BYTE: `SendByte` of TX_BYTE (R121). -/
  | sendByte
  /-- RECV_BYTE: `RecvByte` into RX_BYTE (R122). -/
  | recvByte
  /-- LINES_IDLE: `LinesIdle` (R105). -/
  | linesIdle
  /-- MSG_RECEIVE: `MsgReceive`, started by a start condition on the inbound lines (R77, R129). -/
  | msgReceive
  deriving DecidableEq, Repr

/-- The operations that a CMD write starts: all but message reception (R73). -/
def Instr.isCommand : Instr → Bool
  | .nop => true
  | .sendMsg => true
  | .phyStart => true
  | .phyStop => true
  | .sendByte => true
  | .recvByte => true
  | .linesIdle => true
  | .msgReceive => false

/-- What encodes an operation: the byte written to CMD (format CMD8, R72) or the three-bit pattern
`ci di_prev di` seen on the inbound lines (format LINE3, R77). -/
inductive Encoding where
  | cmd8 (w : BitVec 8)
  | line3 (w : BitVec 3)
  deriving DecidableEq, Repr

end Sys2Proof
end

