-- ==== Sys2Proof/WellFormed.lean ====
section
/-! DEFINITION. What is well formed: an operation's encoding (reserved bits zero, spec/30_encoding.md
R72 and R74) and a build's parameters (the admitted values of spec/00_scope.md R7). An operation
itself has no operand to check (R75). -/

namespace Sys2Proof

/-- Every operation is well formed: no command has an operand field or an immediate (R75). -/
def Instr.wf : Instr → Bool
  | .nop => true
  | .sendMsg => true
  | .phyStart => true
  | .phyStop => true
  | .sendByte => true
  | .recvByte => true
  | .linesIdle => true
  | .msgReceive => true

/-- The encodings that stand for an operation: a command word with RSV = 0000 and OP at most 0x6
(R72 to R74), or the start pattern 110 (R77). -/
def Encoding.wf : Encoding → Bool
  | .cmd8 w => w.extractLsb' 4 4 == 0#4 && decide ((w.extractLsb' 0 4).toNat ≤ 6)
  | .line3 w => w == 0b110#3

/-- `NODE_ID` is one of the ASCII codes of '0'..'9' and 'A'..'F' (R7; PRESUMED as R7 marks them,
notes/assumptions/17.md). -/
def Build.idOk (n : Byte) : Bool :=
  (decide (0x30 ≤ n.toNat) && decide (n.toNat ≤ 0x39)) ||
    (decide (0x41 ≤ n.toNat) && decide (n.toNat ≤ 0x46))

/-- The admitted values of the build parameters (R7). -/
def Build.wf (b : Build) : Bool :=
  Build.idOk b.nodeId && decide (b.maxLen ≤ 255) &&
    decide (1 ≤ b.retryMax) && decide (b.retryMax ≤ 255) &&
    decide (1 ≤ b.ackTimeout) && decide (1 ≤ b.edgeTimeout) &&
    decide (1 ≤ b.tDelay) && decide (1 ≤ b.tUnit) && decide (1 ≤ b.tSettle) &&
    decide (1 ≤ b.syncStages)

end Sys2Proof
end

