-- ==== Sys2Proof/Decode.lean ====
section
/-! DEFINITION. The decoder and, after it, the encoder: the command words of spec/30_encoding.md
R72 to R76 and the start-condition pattern of R77. A decoder reads exactly one byte per command. -/

namespace Sys2Proof

/-- Why an encoding stands for no operation. -/
inductive DecodeError where
  /-- RSV (bits 7..4 of a command word) is not 0000 (R74). -/
  | reservedBits
  /-- OP is 0x7..0xF (R73, R74). -/
  | reservedOpcode
  /-- The pattern `ci di_prev di` is not the start condition 110 (R77). -/
  | noStart
  deriving DecidableEq, Repr

/-- What the decoder answers: an operation, or a rejection by name. -/
inductive Decoded where
  | instr (i : Instr)
  | rejected (e : DecodeError)
  deriving DecidableEq, Repr

/-- The field OP of a command word: bits 3..0 (R72). -/
def cmdOp (w : BitVec 8) : BitVec 4 := w.extractLsb' 0 4

/-- The field RSV of a command word: bits 7..4 (R72). -/
def cmdRsv (w : BitVec 8) : BitVec 4 := w.extractLsb' 4 4

/-- The opcode map (R73). -/
def decodeOp (op : BitVec 4) : Decoded :=
  match op.toNat with
  | 0x0 => .instr .nop
  | 0x1 => .instr .sendMsg
  | 0x2 => .instr .phyStart
  | 0x3 => .instr .phyStop
  | 0x4 => .instr .sendByte
  | 0x5 => .instr .recvByte
  | 0x6 => .instr .linesIdle
  | _ => .rejected .reservedOpcode

/-- A command word: RSV must be 0000, then OP names the operation (R72 to R74). -/
def decodeCmd (w : BitVec 8) : Decoded :=
  if cmdRsv w = 0#4 then decodeOp (cmdOp w) else .rejected .reservedBits

/-- The trigger pattern `ci di_prev di` (R77). -/
def decodeLine (w : BitVec 3) : Decoded :=
  if w = 0b110#3 then .instr .msgReceive else .rejected .noStart

/-- The decoder over both formats. -/
def decode : Encoding → Decoded
  | .cmd8 w => decodeCmd w
  | .line3 w => decodeLine w

/-- The opcode of a command (R73); message reception has none. -/
def opOf : Instr → Option (BitVec 4)
  | .nop => some 0x0#4
  | .sendMsg => some 0x1#4
  | .phyStart => some 0x2#4
  | .phyStop => some 0x3#4
  | .sendByte => some 0x4#4
  | .recvByte => some 0x5#4
  | .linesIdle => some 0x6#4
  | .msgReceive => none

/-- The encoder: RSV = 0000 above the opcode (R72, R73), or the start pattern (R77). -/
def encode (i : Instr) : Encoding :=
  match opOf i with
  | some op => .cmd8 (0#4 ++ op)
  | none => .line3 0b110#3

/-- The encoding that the opcode table numbers as `w` in `nbits` bits: eight bits are a command word,
three bits the LINE3 pattern. DEDUCED (notes/assumptions/2.md): a LINE3 pattern rounded up to a whole
byte cannot be told from a command word, and eight bits are read as the command word. -/
def tableEncoding (nbits w : Nat) : Option Encoding :=
  if nbits = 8 then some (.cmd8 (BitVec.ofNat 8 w))
  else if nbits = 3 then some (.line3 (BitVec.ofNat 3 w))
  else none

/-- What the decoder reads from a row of the opcode table. -/
def decodeTableWord (nbits w : Nat) : Option Instr :=
  match tableEncoding nbits w with
  | none => none
  | some e =>
    match decode e with
    | .instr i => some i
    | .rejected _ => none

end Sys2Proof
end

