-- ==== Sys2Proof/Machine/State.lean ====
section
/-! DEFINITION. The state of one RLPE (spec/10_state.md), the inputs of its cycles, its faults and
refusals, and the state after reset (spec/10_state.md R53). -/

namespace Sys2Proof.Machine

/-- The RLPE has no fault and no trap: "there are no traps, exceptions in the processor sense or
interrupt entries" (R153) and "nothing is fatal" (R144), so this type has no constructor. -/
inductive Fault where
  deriving DecidableEq, Repr

/-- Why a step has no meaning. -/
inductive Refusal where
  /-- An operation without a meaning in this model. Raised by an arm of `exec` only; safe. -/
  | notModelled (mnemonic : String)
  /-- The pending latch holds a reserved opcode 0x7..0xF. Raised by `step` at dispatch; safe. No run
  reaches it: a CMD write latches none (R94, R95; the field `pendOp_ok` of `State.Inv`; DEDUCED,
  notes/assumptions/6.md). -/
  | reservedOpcode (op : BitVec 4)
  deriving DecidableEq, Repr

/-- What the environment drives during one cycle (R21): the reset, the three raw input pins and the
host bus. DEDUCED, safe: a pin has one level in a cycle (notes/assumptions/13.md). -/
structure Input where
  rst : Bool
  clkIn : Level
  datIn : Level
  ackIn : Level
  hSel : Bool
  hWe : Bool
  hAddr : Addr
  hWdata : Byte
  deriving DecidableEq, Repr

/-- A cycle with no reset, no host access and nothing connected: an input that nothing drives is
held at 1 (R160). -/
def Input.undriven : Input where
  rst := false
  clkIn := true
  datIn := true
  ackIn := true
  hSel := false
  hWe := false
  hAddr := 0
  hWdata := 0

/-- The registers of the address map (R56); a buffer entry carries its index. -/
inductive Reg where
  | id | cmd | status | event0 | event1 | irqEn0 | irqEn1 | config
  | txLen | txDest | txByte | rxByte | rxLen | rxDest | rxSrc | cmdResult
  | diagLast | diagPos | diagCount | lastAttempts | lines | paramMaxLen | paramRetry
  | txBuf (k : Nat)
  | rxBuf (k : Nat)
  | reserved
  deriving DecidableEq, Repr

/-- The event flags: EVENT0 (R37), then EVENT1 (R38). -/
inductive Event where
  | cmdDone | cmdRejected | cmdIllegal | wrIgnored | sendOk | sendFailed | txByteFail | rxTimeout
  | msgDelivered | msgRelayed | msgDropped | oversize | staleEcho | prematureAck | startSeen
  deriving DecidableEq, Repr

/-- A byte buffer, as (index, byte) pairs in canonical form: indices strictly rising, no byte 0. An
unlisted entry reads 0, its reset value (R53; DEDUCED, safe, notes/assumptions/7.md). -/
abbrev Memory := List Host.Cell

/-- Where `PhyStart` (R100) is: its first `DELAY(T_DELAY)`, DAT_OUT high, or its second, DAT_OUT low. -/
inductive PhyStartPt where
  | high
  | low
  deriving DecidableEq, Repr

/-- Where `PhyStop` (R101) is: the `DELAY` after the clock is raised, or the one after the data is. -/
inductive PhyStopPt where
  | clock
  | data
  deriving DecidableEq, Repr

/-- Where `SendByte` (R108) is. -/
inductive SendBytePt where
  /-- `DELAY(1)` after the clock fall of bit cell `j`. -/
  | clockLow (j : Fin 8)
  /-- `DELAY(T_UNIT)` after the data change of bit cell `j`. -/
  | dataLow (j : Fin 8)
  /-- `DELAY(T_UNIT)` after the clock rise of bit cell `j`. -/
  | clockHigh (j : Fin 8)
  /-- `WAIT(ai = 0, ACK_TIMEOUT)`. -/
  | ackWait
  /-- `DELAY(T_UNIT)` after the 9th clock rise. -/
  | ackPulse
  deriving DecidableEq, Repr

/-- An active `SendByte`: its byte `v` and where it is (R25). -/
structure SendByteAct where
  v : Byte
  pt : SendBytePt
  deriving DecidableEq, Repr

/-- Which of its 19 waits `RecvByte` (R114) is at. -/
inductive RecvBytePt where
  /-- `WAIT(ci = 0)` before bit `j` (step code 0x10 + j). -/
  | fall (j : Fin 8)
  /-- `WAIT(ci = 1)` of bit `j` (step code 0x18 + j). -/
  | rise (j : Fin 8)
  /-- `WAIT(ci = 0)` after the last bit (step code 0x20). -/
  | ackRequest
  /-- `WAIT(ci = 1)` with ACK_OUT = 0 (step code 0x21). -/
  | ackRise
  /-- `WAIT(ci = 0)` after the 9th pulse (step code 0x22). -/
  | ackFall
  deriving DecidableEq, Repr

/-- An active `RecvByte`: its accumulator and where it is (R25). -/
structure RecvByteAct where
  acc : Byte
  pt : RecvBytePt
  deriving DecidableEq, Repr

/-- The frame source of `MsgSend` (R123). -/
inductive FrameSource where
  | tx
  | frame
  deriving DecidableEq, Repr

/-- Where `MsgSend` (R124) is within one attempt. -/
inductive MsgSendPt where
  | start (q : PhyStartPt)
  | byte (a : SendByteAct)
  | stop (q : PhyStopPt)
  deriving DecidableEq, Repr

/-- An active `MsgSend`: its locals `srcsel`, `attempt`, `fail` and `p` (R25), and where it is. -/
structure MsgSendAct where
  src : FrameSource
  attempt : Nat
  fail : Bool
  p : Nat
  pt : MsgSendPt
  deriving DecidableEq, Repr

/-- Where `MsgReceive` (R129) is; `k` is its payload index (R25). -/
inductive MsgReceivePt where
  /-- `RecvByte(0)`: the length byte. -/
  | length (a : RecvByteAct)
  /-- `RecvByte(1)`: the recipient byte. -/
  | recipient (a : RecvByteAct)
  /-- `RecvByte(2)`: the sender byte. -/
  | sender (a : RecvByteAct)
  /-- `RecvByte(3 + k)` of an oversize payload that is discarded. -/
  | drain (k : Nat) (a : RecvByteAct)
  /-- `PhyStop` of the oversize path. -/
  | oversizeStop (q : PhyStopPt)
  /-- `DELAY(T_SETTLE)` of the oversize path. -/
  | oversizeSettle
  /-- `RecvByte(3 + k)` of a payload byte. -/
  | payload (k : Nat) (a : RecvByteAct)
  /-- `PhyStop` after the payload. -/
  | stop (q : PhyStopPt)
  /-- `DELAY(T_SETTLE)` after the payload. -/
  | settle
  /-- The resync bracket before the relay (R137). -/
  | relayBefore
  /-- `MsgSend(FRAME)`. -/
  | relay (m : MsgSendAct)
  /-- The resync bracket after the relay (R137). -/
  | relayAfter
  deriving DecidableEq, Repr

/-- The control point (R17, R25): the timed statement the block is at, with the calls that lead to
it and their local variables. NOP and LINES_IDLE hold no timed statement, so no point is theirs.
DESIGN CHOICE, safe: locals of active calls only (notes/assumptions/11.md). -/
inductive Point where
  /-- `IDLE_POLL` of `Main` (R89). -/
  | idle
  | phyStart (q : PhyStartPt)
  | phyStop (q : PhyStopPt)
  | sendByte (a : SendByteAct)
  | recvByte (a : RecvByteAct)
  | sendMsg (m : MsgSendAct)
  | receive (q : MsgReceivePt)
  deriving DecidableEq, Repr

/-- The frame position of a byte, or `alone` for a stand-alone SEND_BYTE or RECV_BYTE (R48, R84). -/
inductive BytePos where
  | frame (p : Nat)
  | alone
  deriving DecidableEq, Repr

/-- The state of one RLPE during one cycle. -/
structure State where
  /-- The build parameters (R7); no step changes them. -/
  build : Build
  /-- The synchroniser of CLK_IN, `s[1]` first (R22). -/
  clkSync : List Level
  /-- The synchroniser of DAT_IN (R22). -/
  datSync : List Level
  /-- The synchroniser of ACK_IN (R22). -/
  ackSync : List Level
  /-- `di_prev` (R23). -/
  diPrev : Level
  /-- `CLK_OUT` (R24). -/
  clkOut : Level
  /-- `DAT_OUT` (R24). -/
  datOut : Level
  /-- `ACK_OUT` (R24). -/
  ackOut : Level
  /-- The control point (R25). -/
  point : Point
  /-- The elapsed-cycle counter of the current `DELAY` or `WAIT` (R25, R157). -/
  cnt : Nat
  /-- `rx_act` (R26). -/
  rxAct : Bool
  /-- `tx_act` (R26). -/
  txAct : Bool
  /-- `cmd_act` (R26). -/
  cmdAct : Bool
  /-- `PEND_VALID` (R27). -/
  pendValid : Bool
  /-- `PEND_OP` (R27). -/
  pendOp : BitVec 4
  /-- `FRAME_LEN` (R28). -/
  frameLen : Byte
  /-- `FRAME_DEST` (R28). -/
  frameDest : Byte
  /-- `FRAME_SRC` (R28). -/
  frameSrc : Byte
  /-- `FRAME_PAY` (R28). -/
  framePay : Memory
  /-- EVENT0 (R37). -/
  event0 : Byte
  /-- EVENT1 (R38). -/
  event1 : Byte
  /-- IRQEN0 (R34). -/
  irqEn0 : Byte
  /-- IRQEN1 (R34). -/
  irqEn1 : Byte
  /-- CONFIG (R33). -/
  config : Byte
  /-- TX_LEN (R39). -/
  txLen : Byte
  /-- TX_DEST (R40). -/
  txDest : Byte
  /-- TX_BYTE (R41). -/
  txByte : Byte
  /-- TX_BUF (R42). -/
  txBuf : Memory
  /-- RX_BYTE (R43). -/
  rxByte : Byte
  /-- RX_LEN (R44). -/
  rxLen : Byte
  /-- RX_DEST (R44). -/
  rxDest : Byte
  /-- RX_SRC (R44). -/
  rxSrc : Byte
  /-- RX_STORE, the storage behind RX_BUF (R45). -/
  rxStore : Memory
  /-- CMD_RESULT (R46). -/
  cmdResult : Byte
  /-- DIAG_LAST (R47). -/
  diagLast : Byte
  /-- DIAG_POS (R48). -/
  diagPos : Byte
  /-- DIAG_COUNT (R49). -/
  diagCount : Byte
  /-- LAST_ATTEMPTS (R50). -/
  lastAttempts : Byte
  /-- The MODEL's own field: what the environment drives in this cycle (the head) and in the cycles
  after it; past its end every cycle is `Input.undriven` (notes/assumptions/3.md). -/
  inputs : List Input
  deriving DecidableEq, Repr

/-- The state after reset of an RLPE built with `b`, followed by the inputs `xs` (R53, R167). The
parameters are build constants: reset does not touch them (R169). -/
def State.resetOf (b : Build) (xs : List Input) : State where
  build := b
  clkSync := List.replicate b.syncStages true
  datSync := List.replicate b.syncStages true
  ackSync := List.replicate b.syncStages true
  diPrev := true
  clkOut := true
  datOut := true
  ackOut := true
  point := .idle
  cnt := 0
  rxAct := false
  txAct := false
  cmdAct := false
  pendValid := false
  pendOp := 0
  frameLen := 0
  frameDest := 0
  frameSrc := 0
  framePay := []
  event0 := 0
  event1 := 0
  irqEn0 := 0
  irqEn1 := 0
  config := 0x05
  txLen := 0
  txDest := 0
  txByte := 0
  txBuf := []
  rxByte := 0
  rxLen := 0
  rxDest := 0
  rxSrc := 0
  rxStore := []
  cmdResult := 0
  diagLast := 0
  diagPos := 0
  diagCount := 0
  lastAttempts := 0
  inputs := xs

/-- The machine right after reset, built as `Build.reference` says, with nothing driven (R53). -/
def State.reset : State := State.resetOf Build.reference []

/-- What the environment drives in this cycle. -/
def State.now (s : State) : Input := s.inputs.headD Input.undriven

end Sys2Proof.Machine
end

