-- ==== Sys2Proof/Machine/Flags.lean ====
section
/-! DEFINITION. The event flags, the values computed from them (the interrupt request, STATUS) and
LINES (spec/10_state.md R32 to R38 and R51, spec/60_exceptions.md R146 to R148). -/

namespace Sys2Proof.Machine

/-- The byte whose bit `n` is `b` and whose other bits are 0. -/
def bitAt (n : Nat) (b : Bool) : Byte := if b then 1#8 <<< n else 0#8

/-- The EVENT0 bit of an event, as a mask; 0 for an event of EVENT1 (R37). -/
def Event.mask0 : Event → Byte
  | .cmdDone => 0x01
  | .cmdRejected => 0x02
  | .cmdIllegal => 0x04
  | .wrIgnored => 0x08
  | .sendOk => 0x10
  | .sendFailed => 0x20
  | .txByteFail => 0x40
  | .rxTimeout => 0x80
  | .msgDelivered => 0
  | .msgRelayed => 0
  | .msgDropped => 0
  | .oversize => 0
  | .staleEcho => 0
  | .prematureAck => 0
  | .startSeen => 0

/-- The EVENT1 bit of an event, as a mask; 0 for an event of EVENT0 (R38). -/
def Event.mask1 : Event → Byte
  | .cmdDone => 0
  | .cmdRejected => 0
  | .cmdIllegal => 0
  | .wrIgnored => 0
  | .sendOk => 0
  | .sendFailed => 0
  | .txByteFail => 0
  | .rxTimeout => 0
  | .msgDelivered => 0x01
  | .msgRelayed => 0x02
  | .msgDropped => 0x04
  | .oversize => 0x08
  | .staleEcho => 0x10
  | .prematureAck => 0x20
  | .startSeen => 0x40

/-- `raise Event(NAME)`: the flag becomes 1 and stays so until a host write clears it (R15, R35). -/
def State.raise (w : State) (e : Event) : State :=
  { w with event0 := w.event0 ||| e.mask0, event1 := w.event1 ||| e.mask1 }

/-- The value of an event flag. -/
def State.flag (s : State) (e : Event) : Bool :=
  (s.event0 &&& e.mask0) != 0 || (s.event1 &&& e.mask1) != 0

/-- A host write to a W1C register: a 1 clears the bit, a 0 leaves it (R35). -/
def clearOnes (old d : Byte) : Byte := old &&& ~~~d

/-- The output `irq`: a level computed from registers only (R148). -/
def State.irq (s : State) : Bool :=
  (s.event0 &&& s.irqEn0) != 0 || (s.event1 &&& s.irqEn1) != 0

/-- STATUS.BUSY: the control point is not `IDLE_POLL`, or a command is pending (R32). -/
def State.busy (s : State) : Bool := s.point != .idle || s.pendValid

/-- STATUS (R32). -/
def State.status (s : State) : Byte :=
  bitAt 0 s.busy ||| bitAt 1 s.pendValid ||| bitAt 2 s.rxAct ||| bitAt 3 s.txAct |||
    bitAt 4 s.cmdAct ||| bitAt 5 s.irq

/-- The synchronised clock-in `ci`: the last stage (R22). -/
def State.ci (s : State) : Level := s.clkSync.getLastD true

/-- The synchronised data-in `di` (R22). -/
def State.di (s : State) : Level := s.datSync.getLastD true

/-- The synchronised ack-in `ai` (R22). -/
def State.ai (s : State) : Level := s.ackSync.getLastD true

/-- LINES: the three outputs and the three synchronised inputs (R51). -/
def State.linesReg (s : State) : Byte :=
  bitAt 0 s.clkOut ||| bitAt 1 s.datOut ||| bitAt 2 s.ackOut ||| bitAt 3 s.ci ||| bitAt 4 s.di |||
    bitAt 5 s.ai

/-- CONFIG.AUTO_RX (R33). -/
def State.autoRx (s : State) : Bool := s.config.getLsbD 0

/-- CONFIG.DRAIN_OVERSIZE (R33). -/
def State.drainOversize (s : State) : Bool := s.config.getLsbD 1

/-- CONFIG.RESYNC (R33). -/
def State.resync (s : State) : Bool := s.config.getLsbD 2

/-- The start-condition trigger `ci di_prev di` (R77). -/
def State.trigger (s : State) : BitVec 3 :=
  BitVec.ofBool s.ci ++ BitVec.ofBool s.diPrev ++ BitVec.ofBool s.di

/-- `start_det`: the clock is high and the data fell since the previous cycle (R91). -/
def State.startDet (s : State) : Bool := s.ci && s.diPrev && !s.di

end Sys2Proof.Machine
end

