-- ==== Sys2Proof/Machine/Operands.lean ====
section
/-! DEFINITION. What the operations and the host address: the buffers, the address map
(spec/20_memory.md R56 and R57), the frame that `MsgSend` sends (spec/43_message.md R123) and the
frame position recorded at a failure point (spec/30_encoding.md R84). -/

namespace Sys2Proof.Machine

/-- Entry `k` of a buffer; an unlisted entry reads 0 (R53). -/
def Memory.read : Memory → Nat → Byte
  | [], _ => 0
  | (a, x) :: m, k => if k = a then x else Memory.read m k

/-- Entry `k` of a buffer takes the value `v`; the canonical form is kept. -/
def Memory.write : Memory → Nat → Byte → Memory
  | [], k, v => if v = 0#8 then [] else [(k, v)]
  | (a, x) :: m, k, v =>
    if k < a then (if v = 0#8 then (a, x) :: m else (k, v) :: (a, x) :: m)
    else if k = a then (if v = 0#8 then m else (k, v) :: m)
    else (a, x) :: Memory.write m k v

/-- The canonical form: indices strictly rising, no listed byte 0. -/
def Memory.wf : Memory → Bool
  | [] => true
  | (a, x) :: m => x != 0#8 && (m.head?.all fun c => decide (a < c.1)) && Memory.wf m

/-- Every listed index is below `n`: the buffer has `n` entries. -/
def Memory.within (n : Nat) (m : Memory) : Bool := m.all fun c => decide (c.1 < n)

/-- `for k in 0 .. n-1: dst[k] <- src[k]` (R134). -/
def Memory.copy (src : Memory) : Nat → Memory → Memory
  | 0, dst => dst
  | n + 1, dst => (Memory.copy src n dst).write n (src.read n)

/-- The address map (R56). -/
def regAt (a : Addr) : Reg :=
  match a.toNat with
  | 0x000 => .id
  | 0x001 => .cmd
  | 0x002 => .status
  | 0x003 => .event0
  | 0x004 => .event1
  | 0x005 => .irqEn0
  | 0x006 => .irqEn1
  | 0x007 => .config
  | 0x008 => .txLen
  | 0x009 => .txDest
  | 0x00A => .txByte
  | 0x00B => .rxByte
  | 0x00C => .rxLen
  | 0x00D => .rxDest
  | 0x00E => .rxSrc
  | 0x00F => .cmdResult
  | 0x010 => .diagLast
  | 0x011 => .diagPos
  | 0x012 => .diagCount
  | 0x013 => .lastAttempts
  | 0x014 => .lines
  | 0x015 => .paramMaxLen
  | 0x016 => .paramRetry
  | n =>
    if 0x100 ≤ n ∧ n < 0x200 then .txBuf (n - 0x100)
    else if 0x200 ≤ n ∧ n < 0x300 then .rxBuf (n - 0x200)
    else .reserved

/-- TX_BUF[k]: an entry at or above `MAX_LEN` reads 0 (R42). -/
def State.readTxBuf (s : State) (k : Nat) : Byte :=
  if k < s.build.maxLen then s.txBuf.read k else 0

/-- RX_BUF[k]: `RX_STORE[k]` below `RX_LEN`, else 0 (R45). -/
def State.readRxBuf (s : State) (k : Nat) : Byte :=
  if k < s.build.maxLen ∧ k < s.rxLen.toNat then s.rxStore.read k else 0

/-- What a host read of a register returns (R30 to R52, R57). -/
def State.readReg (s : State) : Reg → Byte
  | .id => s.build.nodeId
  | .cmd => 0
  | .status => s.status
  | .event0 => s.event0
  | .event1 => s.event1
  | .irqEn0 => s.irqEn0
  | .irqEn1 => s.irqEn1
  | .config => s.config
  | .txLen => s.txLen
  | .txDest => s.txDest
  | .txByte => s.txByte
  | .rxByte => s.rxByte
  | .rxLen => s.rxLen
  | .rxDest => s.rxDest
  | .rxSrc => s.rxSrc
  | .cmdResult => s.cmdResult
  | .diagLast => s.diagLast
  | .diagPos => s.diagPos
  | .diagCount => s.diagCount
  | .lastAttempts => s.lastAttempts
  | .lines => s.linesReg
  | .paramMaxLen => BitVec.ofNat 8 s.build.maxLen
  | .paramRetry => BitVec.ofNat 8 s.build.retryMax
  | .txBuf k => s.readTxBuf k
  | .rxBuf k => s.readRxBuf k
  | .reserved => 0

/-- `MemRead(addr, 1)`: the value of the register at an address during the cycle (R16, R58). -/
def State.hostRead (s : State) (a : Addr) : Byte := s.readReg (regAt a)

/-- The output `h_rdata`: 0x00 in a cycle with no read and while `rst` = 1 (R58, R59). -/
def State.hRdata (s : State) : Byte :=
  if s.now.hSel && !s.now.hWe && !s.now.rst then s.hostRead s.now.hAddr else 0

/-- `FN(srcsel)`: how many bytes the frame has (R123). -/
def State.frameCount (s : State) : FrameSource → Nat
  | .tx => 3 + s.txLen.toNat
  | .frame => 3 + s.frameLen.toNat

/-- `FB(srcsel, p)`: the byte at frame position `p` (R123). -/
def State.frameByte (s : State) (src : FrameSource) (p : Nat) : Byte :=
  match src, p with
  | .tx, 0 => s.txLen
  | .tx, 1 => s.txDest
  | .tx, 2 => s.build.nodeId
  | .tx, k + 3 => s.readTxBuf k
  | .frame, 0 => s.frameLen
  | .frame, 1 => s.frameDest
  | .frame, 2 => s.frameSrc
  | .frame, k + 3 => s.framePay.read k

/-- What DIAG_POS records: `sat_254(position)`, or 0xFF for a stand-alone command (R48, R141).
DEDUCED (notes/assumptions/5.md): a frame position 255 records 0xFE. -/
def BytePos.code : BytePos → Byte
  | .frame p => BitVec.ofNat 8 (min p 254)
  | .alone => 0xFF

/-- Bit `7-j` of `v`: what bit cell `j` carries, most significant bit first (R62, R81). -/
def cellBit (v : Byte) (j : Fin 8) : Level := v.getLsbD (7 - j.val)

/-- `zext_8` of a level (R10). -/
def zext8 (b : Level) : Byte := bitAt 0 b

end Sys2Proof.Machine
end

