-- ==== Sys2Proof/Machine/Ops.lean ====
section
/-! DEFINITION. The shared operations: the timed statements of a micro-program (spec/00_scope.md R12
and R13), the failure point (spec/60_exceptions.md R141; the RLPE takes no exception in the
processor sense and has none to return from, R153 and R154), host accesses (spec/20_memory.md R58
to R61) and what every clock edge does beside the block's own segment (spec/10_state.md R22, R23).

A segment is written over two states: `t`, the state of the cycle being evaluated, whose CONFIG, TX
registers and synchronised inputs it reads, and `w`, the state after the edge as far as it is
written. `w` starts as `t.edge`, so a host write of the same cycle stands in it already: an event
the segment raises wins over a clear, and the clear of DIAG_COUNT applies first (R61). -/

namespace Sys2Proof.Machine

/-- The next timed statement starts, in the next cycle (R13). -/
def State.enter (w : State) (p : Point) : State := { w with point := p, cnt := 0 }

/-- The timed statement does not end in this cycle: only its counter changes (R13). -/
def State.tick (t w : State) : State := { w with cnt := t.cnt + 1 }

/-- `DELAY(n)`, then `k` (R12). It ends in its `n`-th cycle. DESIGN CHOICE, safe: for the `n` = 0 that
no build admits, in its first (notes/assumptions/12.md). -/
def State.delay (t w : State) (n : Nat) (k : State → State) : State :=
  if t.cnt + 1 < n then t.tick w else k w

/-- `WAIT(cond, L)`, then `k ok` (R12, R14): it ends in the first cycle in which `cond` holds, or by
timeout in its `L`-th cycle. -/
def State.wait (t w : State) (cond : Bool) (limit : Nat) (k : Bool → State → State) : State :=
  if cond then k true w else if t.cnt + 1 < limit then t.tick w else k false w

/-- `sat_255(n + 1)` (R141). -/
def incSat (n : Byte) : Byte := if n = 0xFF then 0xFF else n + 1

/-- The event flags a failure point raises (R141). -/
def State.raiseFailureEvents (w : State) (code : Byte) : State :=
  if code = 0x30 then (w.raise .txByteFail).raise .prematureAck
  else if code = 0x31 then w.raise .txByteFail
  else if 0x10 ≤ code.toNat ∧ code.toNat ≤ 0x22 then w.raise .rxTimeout
  else w

/-- `raise Failure(code, pos)`: the failure is recorded and the micro-program goes on (R15, R141). -/
def State.raiseFailure (w : State) (code : Byte) (pos : BytePos) : State :=
  State.raiseFailureEvents
    { w with diagLast := code, diagPos := pos.code, diagCount := incSat w.diagCount } code

/-- `LinesIdle`: the three outputs take their idle level (R102). -/
def State.linesIdle (w : State) : State :=
  { w with clkOut := true, datOut := true, ackOut := true }

/-- What a CMD write of a byte meets (R93 to R95). -/
inductive CmdVerdict where
  | rejected
  | illegal
  | accepted
  deriving DecidableEq, Repr

/-- BUSY first, then legality: RSV, OP, and `TX_LEN > MAX_LEN` for SEND_MSG (R74, R93 to R95). -/
def State.cmdVerdict (s : State) (d : Byte) : CmdVerdict :=
  if s.busy then .rejected
  else
    match decodeCmd d with
    | .rejected _ => .illegal
    | .instr .sendMsg => if s.build.maxLen < s.txLen.toNat then .illegal else .accepted
    | .instr _ => .accepted

/-- A host write to CMD (R93 to R95). -/
def State.writeCmd (s : State) (d : Byte) : State :=
  match s.cmdVerdict d with
  | .rejected => s.raise .cmdRejected
  | .illegal => s.raise .cmdIllegal
  | .accepted => { s with pendValid := true, pendOp := cmdOp d }

/-- A host write to a TX register: not performed while BUSY, and WR_IGNORED is set (R60). -/
def State.writeTx (s : State) (s' : State) : State := if s.busy then s.raise .wrIgnored else s'

/-- A host write to TX_BUF[k]: ignored silently at or above `MAX_LEN`, even while BUSY (R60). -/
def State.writeTxBuf (s : State) (k : Nat) (d : Byte) : State :=
  if k < s.build.maxLen then s.writeTx { s with txBuf := s.txBuf.write k d } else s

/-- A host write of `d` to a register (R30 to R52, R57, R60). Reserved bits ignore the write. -/
def State.writeReg (s : State) (r : Reg) (d : Byte) : State :=
  match r with
  | .cmd => s.writeCmd d
  | .event0 => { s with event0 := clearOnes s.event0 d }
  | .event1 => { s with event1 := clearOnes s.event1 d }
  | .irqEn0 => { s with irqEn0 := d }
  | .irqEn1 => { s with irqEn1 := d &&& 0x7F }
  | .config => { s with config := d &&& 0x07 }
  | .txLen => s.writeTx { s with txLen := d }
  | .txDest => s.writeTx { s with txDest := d }
  | .txByte => s.writeTx { s with txByte := d }
  | .txBuf k => s.writeTxBuf k d
  | .diagCount => { s with diagCount := 0 }
  | .id => s
  | .status => s
  | .rxByte => s
  | .rxLen => s
  | .rxDest => s
  | .rxSrc => s
  | .cmdResult => s
  | .diagLast => s
  | .diagPos => s
  | .lastAttempts => s
  | .lines => s
  | .paramMaxLen => s
  | .paramRetry => s
  | .rxBuf _ => s
  | .reserved => s

/-- `MemWrite(addr, 1, d)` (R16, R59). -/
def State.hostWrite (s : State) (a : Addr) (d : Byte) : State := s.writeReg (regAt a) d

/-- The host access of this cycle: a read changes nothing, a write lands at the edge (R58, R59). -/
def State.hostAccess (s : State) : State :=
  if s.now.hSel && s.now.hWe then s.hostWrite s.now.hAddr s.now.hWdata else s

/-- One edge of a synchroniser: `s[1] <- pin`, `s[i] <- s[i-1]` (R22). -/
def shiftIn (pin : Level) (stages : List Level) : List Level := (pin :: stages).dropLast

/-- What the edge that ends cycle `t` does beside the block's segment: the host write, the
synchronisers, `di_prev` (R22, R23, R59); the next cycle's inputs come up. DEDUCED, unsafe if wrong:
the host's write applies before the segment's (R61, notes/assumptions/9.md). -/
def State.edge (t : State) : State :=
  { t.hostAccess with
    clkSync := shiftIn t.now.clkIn t.clkSync
    datSync := shiftIn t.now.datIn t.datSync
    ackSync := shiftIn t.now.ackIn t.ackSync
    diPrev := t.di
    inputs := t.inputs.tail }

/-- A cycle with `rst` = 1: at its edge every piece of state takes its reset value, and the host
access of the cycle has no effect (R59, R167). -/
def State.resetEdge (t : State) : State := State.resetOf t.build t.inputs.tail

end Sys2Proof.Machine
end

