-- ==== Sys2Proof/Machine/LineSteps.lean ====
section
/-! DEFINITION. The micro-programs of the physical and the protocol layer: `PhyStart` and `PhyStop`
(spec/41_physical.md R100, R101), `SendByte` and `RecvByte` (spec/42_protocol.md R108, R114).
`begin…` is the segment up to the first timed statement; `go…` is one cycle of the running
micro-program. `wrap` places its control point in the caller's, `ret` is what follows its return. -/

namespace Sys2Proof.Machine

/-- `PhyStart` up to its first `DELAY` (R100). -/
def State.beginPhyStart (w : State) (wrap : PhyStartPt → Point) : State :=
  State.enter { w with clkOut := true, datOut := true } (wrap .high)

/-- One cycle of `PhyStart` (R100). -/
def State.goPhyStart (t w : State) (q : PhyStartPt) (wrap : PhyStartPt → Point)
    (ret : State → State) : State :=
  match q with
  | .high => t.delay w t.build.tDelay fun w => State.enter { w with datOut := false } (wrap .low)
  | .low => t.delay w t.build.tDelay ret

/-- `PhyStop` up to its first `DELAY` (R101). -/
def State.beginPhyStop (w : State) (wrap : PhyStopPt → Point) : State :=
  State.enter { w with clkOut := true } (wrap .clock)

/-- One cycle of `PhyStop` (R101). -/
def State.goPhyStop (t w : State) (q : PhyStopPt) (wrap : PhyStopPt → Point)
    (ret : State → State) : State :=
  match q with
  | .clock => t.delay w t.build.tDelay fun w => State.enter { w with datOut := true } (wrap .data)
  | .data => t.delay w t.build.tDelay ret

/-- `SendByte(v, …)` up to its first `DELAY`: the clock falls for bit cell 0 (R108). -/
def State.beginSendByte (w : State) (v : Byte) (wrap : SendByteAct → Point) : State :=
  State.enter { w with clkOut := false } (wrap ⟨v, .clockLow 0⟩)

/-- What follows the last cycle of a bit cell's high phase: the next cell, or after the 8th the
premature-ack check and the 9th clock fall (R108). -/
def State.afterCell (t w : State) (v : Byte) (j : Fin 8) (pos : BytePos)
    (wrap : SendByteAct → Point) (ret : Bool → State → State) : State :=
  if j.val < 7 then State.enter { w with clkOut := false } (wrap ⟨v, .clockLow (j + 1)⟩)
  else if t.ai = false then ret false (w.raiseFailure 0x30 pos)
  else State.enter { w with clkOut := false } (wrap ⟨v, .ackWait⟩)

/-- One cycle of `SendByte` (R108). -/
def State.goSendByte (t w : State) (a : SendByteAct) (pos : BytePos) (wrap : SendByteAct → Point)
    (ret : Bool → State → State) : State :=
  match a.pt with
  | .clockLow j =>
    t.delay w 1 fun w => State.enter { w with datOut := cellBit a.v j } (wrap ⟨a.v, .dataLow j⟩)
  | .dataLow j =>
    t.delay w t.build.tUnit fun w => State.enter { w with clkOut := true } (wrap ⟨a.v, .clockHigh j⟩)
  | .clockHigh j => t.delay w t.build.tUnit fun w => t.afterCell w a.v j pos wrap ret
  | .ackWait =>
    t.wait w (!t.ai) t.build.ackTimeout fun ok w =>
      if ok then State.enter { w with clkOut := true } (wrap ⟨a.v, .ackPulse⟩)
      else ret false (w.raiseFailure 0x31 pos)
  | .ackPulse => t.delay w t.build.tUnit (ret true)

/-- `RecvByte(…)` up to its first `WAIT` (R114). -/
def State.beginRecvByte (w : State) (wrap : RecvByteAct → Point) : State :=
  State.enter { w with ackOut := true } (wrap ⟨0, .fall 0⟩)

/-- The step code of a wait of `RecvByte` (R86). -/
def RecvBytePt.code : RecvBytePt → Byte
  | .fall j => BitVec.ofNat 8 (0x10 + j.val)
  | .rise j => BitVec.ofNat 8 (0x18 + j.val)
  | .ackRequest => 0x20
  | .ackRise => 0x21
  | .ackFall => 0x22

/-- The condition of a wait of `RecvByte`: the clock low or the clock high (R114). -/
def RecvBytePt.met (q : RecvBytePt) (ci : Level) : Bool :=
  match q with
  | .fall _ => !ci
  | .rise _ => ci
  | .ackRequest => !ci
  | .ackRise => ci
  | .ackFall => !ci

/-- Bit `j` is sampled into the accumulator, which is shifted but after the last bit (R114). -/
def sampleBit (acc : Byte) (j : Fin 8) (di : Level) : Byte :=
  if j.val < 7 then (acc ||| zext8 di) <<< 1 else acc ||| zext8 di

/-- What follows a wait of `RecvByte` that was satisfied (R114). -/
def State.afterEdge (t w : State) (a : RecvByteAct) (wrap : RecvByteAct → Point)
    (ret : Byte → Bool → State → State) : State :=
  match a.pt with
  | .fall j => w.enter (wrap ⟨a.acc, .rise j⟩)
  | .rise j =>
    w.enter (wrap ⟨sampleBit a.acc j t.di, if j.val < 7 then .fall (j + 1) else .ackRequest⟩)
  | .ackRequest => State.enter { w with ackOut := false } (wrap ⟨a.acc, .ackRise⟩)
  | .ackRise => w.enter (wrap ⟨a.acc, .ackFall⟩)
  | .ackFall => ret a.acc true { w with ackOut := true }

/-- One cycle of `RecvByte`: every wait has the limit `EDGE_TIMEOUT`, and a timeout returns the
accumulator as it stands (R114, R116). -/
def State.goRecvByte (t w : State) (a : RecvByteAct) (pos : BytePos) (wrap : RecvByteAct → Point)
    (ret : Byte → Bool → State → State) : State :=
  t.wait w (a.pt.met t.ci) t.build.edgeTimeout fun ok w =>
    if ok then t.afterEdge w a wrap ret else ret a.acc false (w.raiseFailure a.pt.code pos)

end Sys2Proof.Machine
end

