-- ==== Sys2Proof/Machine/MessageSteps.lean ====
section
/-! DEFINITION. The micro-programs of the message layer: `MsgSend` (spec/43_message.md R123 to R126)
and `MsgReceive` (R129 to R139). -/

namespace Sys2Proof.Machine

/-- One attempt of `MsgSend` begins with `PhyStart` (R124). -/
def State.beginAttempt (w : State) (src : FrameSource) (attempt : Nat) (wrap : MsgSendAct → Point) :
    State :=
  w.beginPhyStart fun q => wrap ⟨src, attempt, false, 0, .start q⟩

/-- `MsgSend(srcsel)` up to its first timed statement: attempt 1 (R124). -/
def State.beginMsgSend (w : State) (src : FrameSource) (wrap : MsgSendAct → Point) : State :=
  State.beginAttempt { w with txAct := true } src 1 wrap

/-- The byte at frame position `p` of the attempt begins (R123, R124). -/
def State.beginFrameByte (t w : State) (m : MsgSendAct) (fail : Bool) (p : Nat)
    (wrap : MsgSendAct → Point) : State :=
  w.beginSendByte (t.frameByte m.src p) fun a => wrap ⟨m.src, m.attempt, fail, p, .byte a⟩

/-- After a byte, sent or failed: the next byte of the same attempt, or the stop condition (R124). -/
def State.afterByte (t w : State) (m : MsgSendAct) (ok : Bool) (wrap : MsgSendAct → Point) : State :=
  if m.p + 1 < t.frameCount m.src then t.beginFrameByte w m (m.fail || !ok) (m.p + 1) wrap
  else w.beginPhyStop fun q => wrap ⟨m.src, m.attempt, m.fail || !ok, m.p, .stop q⟩

/-- `MsgSend` returns: LAST_ATTEMPTS, SEND_OK or SEND_FAILED, `tx_act` (R124). -/
def State.endMsgSend (w : State) (m : MsgSendAct) (ok : Bool) (ret : Bool → State → State) : State :=
  ret ok { State.raise { w with lastAttempts := BitVec.ofNat 8 m.attempt }
      (if ok then .sendOk else .sendFailed) with txAct := false }

/-- After the stop condition: done, abandoned at the ceiling, or the next attempt (R124, R125). -/
def State.afterStop (t w : State) (m : MsgSendAct) (wrap : MsgSendAct → Point)
    (ret : Bool → State → State) : State :=
  if m.fail = false then w.endMsgSend m true ret
  else if m.attempt = t.build.retryMax then w.endMsgSend m false ret
  else w.beginAttempt m.src (m.attempt + 1) wrap

/-- One cycle of `MsgSend` (R124). -/
def State.goMsgSend (t w : State) (m : MsgSendAct) (wrap : MsgSendAct → Point)
    (ret : Bool → State → State) : State :=
  match m.pt with
  | .start q =>
    t.goPhyStart w q (fun q => wrap ⟨m.src, m.attempt, m.fail, m.p, .start q⟩) fun w =>
      t.beginFrameByte w m false 0 wrap
  | .byte a =>
    t.goSendByte w a (.frame m.p) (fun a => wrap ⟨m.src, m.attempt, m.fail, m.p, .byte a⟩)
      fun ok w => t.afterByte w m ok wrap
  | .stop q =>
    t.goPhyStop w q (fun q => wrap ⟨m.src, m.attempt, m.fail, m.p, .stop q⟩) fun w =>
      t.afterStop w m wrap ret

/-- `MsgReceive` returns to `Main`: `rx_act` falls and `IDLE_POLL` comes (R89, R129). -/
def State.endReceive (w : State) : State := State.enter { w with rxAct := false } .idle

/-- The last statement of every path of `MsgReceive`: `LinesIdle`, then the return (R129, R139). -/
def State.finishReceive (w : State) : State := w.linesIdle.endReceive

/-- `MsgReceive` up to its first `WAIT` (R129). -/
def State.beginMsgReceive (w : State) : State := w.beginRecvByte fun a => .receive (.length a)

/-- The drain of an oversize payload: byte `k`, or the stop condition after the last (R129, R132). -/
def State.drainFrom (w : State) (k : Nat) : State :=
  if k < w.frameLen.toNat then w.beginRecvByte fun a => .receive (.drain k a)
  else w.beginPhyStop fun q => .receive (.oversizeStop q)

/-- The payload: byte `k`, or the stop condition after the last (R129). -/
def State.payloadFrom (w : State) (k : Nat) : State :=
  if k < w.frameLen.toNat then w.beginRecvByte fun a => .receive (.payload k a)
  else w.beginPhyStop fun q => .receive (.stop q)

/-- VALIDATING: stale echo, then oversize, then the payload (R129, R130, R132). DEDUCED, unsafe:
OVERSIZE is set here, as R129 and R151 say (notes/assumptions/14.md). -/
def State.validate (t w : State) : State :=
  if w.frameSrc = w.build.nodeId ∧ w.frameDest ≠ w.build.nodeId then
    (w.raise .staleEcho).finishReceive
  else if w.build.maxLen < w.frameLen.toNat then
    if t.drainOversize then (w.raise .oversize).drainFrom 0
    else (w.raise .oversize).beginPhyStop fun q => .receive (.oversizeStop q)
  else w.payloadFrom 0

/-- `Deliver`: all its writes land at one edge (R134). -/
def State.deliver (w : State) : State :=
  State.linesIdle
    { w with
      rxLen := w.frameLen
      rxDest := w.frameDest
      rxSrc := w.frameSrc
      rxStore := w.framePay.copy w.build.maxLen w.rxStore }

/-- `MsgSend(FRAME)` of a relay begins (R136). -/
def State.beginRelay (w : State) : State := w.beginMsgSend .frame fun m => .receive (.relay m)

/-- A relay has ended: MSG_RELAYED, whatever its outcome (R136). -/
def State.endRelay (w : State) : State := (w.raise .msgRelayed).finishReceive

/-- The disposition of a received message: delivery, relay or drop (R129, R135). -/
def State.dispose (t w : State) : State :=
  if w.frameDest = w.build.nodeId then (w.deliver.raise .msgDelivered).finishReceive
  else if 0 < w.frameLen.toNat then
    if t.resync then w.linesIdle.enter (.receive .relayBefore) else w.beginRelay
  else (w.raise .msgDropped).finishReceive

/-- What follows the relay's `MsgSend`: the closing bracket if CONFIG.RESYNC is 1 (R129, R137). -/
def State.afterRelay (t w : State) : State :=
  if t.resync then w.linesIdle.enter (.receive .relayAfter) else w.endRelay

/-- One cycle of `MsgReceive` (R129). A byte that timed out is used as it stands (R131). -/
def State.goMsgReceive (t w : State) (q : MsgReceivePt) : State :=
  match q with
  | .length a =>
    t.goRecvByte w a (.frame 0) (fun a => .receive (.length a)) fun v _ w =>
      State.beginRecvByte { w with frameLen := v } fun a => .receive (.recipient a)
  | .recipient a =>
    t.goRecvByte w a (.frame 1) (fun a => .receive (.recipient a)) fun v _ w =>
      State.beginRecvByte { w with frameDest := v } fun a => .receive (.sender a)
  | .sender a =>
    t.goRecvByte w a (.frame 2) (fun a => .receive (.sender a)) fun v _ w =>
      t.validate { w with frameSrc := v }
  | .drain k a =>
    t.goRecvByte w a (.frame (3 + k)) (fun a => .receive (.drain k a)) fun _ _ w =>
      w.drainFrom (k + 1)
  | .oversizeStop p =>
    t.goPhyStop w p (fun p => .receive (.oversizeStop p)) fun w =>
      w.enter (.receive .oversizeSettle)
  | .oversizeSettle => t.delay w t.build.tSettle State.finishReceive
  | .payload k a =>
    t.goRecvByte w a (.frame (3 + k)) (fun a => .receive (.payload k a)) fun v _ w =>
      State.payloadFrom { w with framePay := w.framePay.write k v } (k + 1)
  | .stop p => t.goPhyStop w p (fun p => .receive (.stop p)) fun w => w.enter (.receive .settle)
  | .settle => t.delay w t.build.tSettle t.dispose
  | .relayBefore => t.delay w t.build.tSettle State.beginRelay
  | .relay m => t.goMsgSend w m (fun m => .receive (.relay m)) fun _ w => t.afterRelay w
  | .relayAfter => t.delay w t.build.tSettle State.endRelay

end Sys2Proof.Machine
end

