-- ==== Sys2Proof/Machine/Control.lean ====
section
/-! DEFINITION. The main loop (spec/40_control.md R89 to R97): which operation the cycle runs, its
dispatch, its completion, one cycle of a running operation; and NOP (R98). -/

namespace Sys2Proof.Machine

/-- A command is dispatched: the pending latch is cleared and `cmd_act` set (R89, R96). -/
def State.beginCommand (w : State) : State := { w with pendValid := false, cmdAct := true }

/-- A command completes: CMD_RESULT, CMD_DONE, `cmd_act`, and `IDLE_POLL` from the next cycle (R89,
R97). -/
def State.endCommand (w : State) (failed : Bool) : State :=
  State.enter { State.raise { w with cmdResult := zext8 failed } .cmdDone with cmdAct := false } .idle

/-- The return of SEND_BYTE: it fails when its `SendByte` did (R121). -/
def State.endSendByte (ok : Bool) (w : State) : State := w.endCommand (!ok)

/-- The return of RECV_BYTE: RX_BYTE is written on success and on failure (R122). -/
def State.endRecvByte (v : Byte) (ok : Bool) (w : State) : State :=
  State.endCommand { w with rxByte := v } (!ok)

/-- The return of SEND_MSG: it fails when the message was abandoned (R128). -/
def State.endSendMsg (ok : Bool) (w : State) : State := w.endCommand (!ok)

/-- One cycle of the operation the block is running; `IDLE_POLL` changes nothing (R13, R99). -/
def State.resume (t w : State) : State :=
  match t.point with
  | .idle => w
  | .phyStart q => t.goPhyStart w q .phyStart fun w => w.endCommand false
  | .phyStop q => t.goPhyStop w q .phyStop fun w => w.endCommand false
  | .sendByte a => t.goSendByte w a .alone .sendByte State.endSendByte
  | .recvByte a => t.goRecvByte w a .alone .recvByte State.endRecvByte
  | .sendMsg m => t.goMsgSend w m .sendMsg State.endSendMsg
  | .receive q => t.goMsgReceive w q

/-- The cycle of an operation: at `IDLE_POLL` it starts with the segment `start`; a running
operation goes on, "the block runs one operation at a time and runs each to its end" (R99). DEDUCED,
safe: a step is a cycle of whatever runs (notes/assumptions/4.md). -/
def State.operate (s : State) (start : State → State → State) : State :=
  match s.point with
  | .idle => start s s.edge
  | _ => s.resume s.edge

/-- The operation a control point belongs to. -/
def Point.instr : Point → Option Instr
  | .idle => none
  | .phyStart _ => some .phyStart
  | .phyStop _ => some .phyStop
  | .sendByte _ => some .sendByte
  | .recvByte _ => some .recvByte
  | .sendMsg _ => some .sendMsg
  | .receive _ => some .msgReceive

/-- What ends `IDLE_POLL` in this cycle (R90): a start condition, if CONFIG.AUTO_RX is 1; else the
pending command, whose word is decoded; else nothing. -/
def State.poll (s : State) : Option Decoded :=
  if s.autoRx && s.startDet then some (decodeLine s.trigger)
  else if s.pendValid then some (decodeCmd (0#4 ++ s.pendOp))
  else none

/-- The operation of this cycle: the running one, or what ends `IDLE_POLL` (R89, R99). -/
def State.fetch (s : State) : Option Decoded :=
  match s.point.instr with
  | some i => some (.instr i)
  | none => s.poll

/-- One cycle with `rst` = 0 in which `IDLE_POLL` does not end. -/
def State.idleCycle (s : State) : State := s.edge

/-- NOP from its dispatch to its completion, in one segment (R98). -/
def State.startNop (_t w : State) : State := w.beginCommand.endCommand false

/-- NOP (opcode 0x0, R98). -/
def execNop (s : State) : Host.Outcome State Fault Refusal := .next (s.operate State.startNop)

end Sys2Proof.Machine
end

