-- ==== Sys2Proof/Machine/Message.lean ====
section
/-! DEFINITION. The operations of the message layer: SEND_MSG (spec/43_message.md R128) and message
reception, which a start condition starts (R129, spec/40_control.md R89). -/

namespace Sys2Proof.Machine

/-- SEND_MSG from its dispatch to the first `DELAY` of attempt 1 (R124, R128). -/
def State.startSendMsg (_t w : State) : State := w.beginCommand.beginMsgSend .tx .sendMsg

/-- SEND_MSG (opcode 0x1, R128). -/
def execSendMsg (s : State) : Host.Outcome State Fault Refusal :=
  .next (s.operate State.startSendMsg)

/-- Message reception from the cycle in which the start condition is seen to its first `WAIT`:
START_SEEN, `rx_act` (R89, R129). -/
def State.startMsgReceive (_t w : State) : State :=
  State.beginMsgReceive { w.raise .startSeen with rxAct := true }

/-- MSG_RECEIVE (line pattern 110, R129). -/
def execMsgReceive (s : State) : Host.Outcome State Fault Refusal :=
  .next (s.operate State.startMsgReceive)

end Sys2Proof.Machine
end

