-- ==== Sys2Proof/Machine/Physical.lean ====
section
/-! DEFINITION. The commands of the physical layer (spec/41_physical.md R103 to R105). -/

namespace Sys2Proof.Machine

/-- PHY_START from its dispatch to the first `DELAY` of `PhyStart` (R100, R103). -/
def State.startPhyStart (_t w : State) : State := w.beginCommand.beginPhyStart .phyStart

/-- PHY_START (opcode 0x2, R103). -/
def execPhyStart (s : State) : Host.Outcome State Fault Refusal :=
  .next (s.operate State.startPhyStart)

/-- PHY_STOP from its dispatch to the first `DELAY` of `PhyStop` (R101, R104). -/
def State.startPhyStop (_t w : State) : State := w.beginCommand.beginPhyStop .phyStop

/-- PHY_STOP (opcode 0x3, R104). -/
def execPhyStop (s : State) : Host.Outcome State Fault Refusal :=
  .next (s.operate State.startPhyStop)

/-- LINES_IDLE from its dispatch to its completion, in one segment (R102, R105). -/
def State.startLinesIdle (_t w : State) : State := w.beginCommand.linesIdle.endCommand false

/-- LINES_IDLE (opcode 0x6, R105). -/
def execLinesIdle (s : State) : Host.Outcome State Fault Refusal :=
  .next (s.operate State.startLinesIdle)

end Sys2Proof.Machine
end

