-- ==== Sys2Proof/Machine/Protocol.lean ====
section
/-! DEFINITION. The commands of the protocol layer (spec/42_protocol.md R121, R122). -/

namespace Sys2Proof.Machine

/-- SEND_BYTE from its dispatch to the first clock fall; it reads TX_BYTE (R121). -/
def State.startSendByte (t w : State) : State :=
  w.beginCommand.beginSendByte t.txByte .sendByte

/-- SEND_BYTE (opcode 0x4, R121). -/
def execSendByte (s : State) : Host.Outcome State Fault Refusal :=
  .next (s.operate State.startSendByte)

/-- RECV_BYTE from its dispatch to its first `WAIT` (R122). -/
def State.startRecvByte (_t w : State) : State := w.beginCommand.beginRecvByte .recvByte

/-- RECV_BYTE (opcode 0x5, R122). -/
def execRecvByte (s : State) : Host.Outcome State Fault Refusal :=
  .next (s.operate State.startRecvByte)

end Sys2Proof.Machine
end

