-- ==== Sys2Proof/Machine/Dispatch.lean ====
section
/-! DEFINITION. One arm per operation: its meaning in the cycle in which it starts or goes on. -/

namespace Sys2Proof.Machine

/-- The cycle of an operation, with `rst` = 0. -/
def exec (i : Instr) (s : State) : Host.Outcome State Fault Refusal :=
  match i with
  | .nop => Sys2Proof.Machine.execNop s
  | .sendMsg => Sys2Proof.Machine.execSendMsg s
  | .phyStart => Sys2Proof.Machine.execPhyStart s
  | .phyStop => Sys2Proof.Machine.execPhyStop s
  | .sendByte => Sys2Proof.Machine.execSendByte s
  | .recvByte => Sys2Proof.Machine.execRecvByte s
  | .linesIdle => Sys2Proof.Machine.execLinesIdle s
  | .msgReceive => Sys2Proof.Machine.execMsgReceive s

end Sys2Proof.Machine
end

