-- ==== Sys2Proof/Machine/Placing.lean ====
section
/-! DEFINITION. Placing an operation where the next cycle finds it: a command in the pending latch,
as an accepted CMD write leaves it (spec/40_control.md R95), or the levels of the start-condition
pattern (spec/30_encoding.md R77). -/

namespace Sys2Proof.Machine

/-- The last stage of a synchroniser takes a level; an empty one gets a stage. -/
def setLast (b : Level) (stages : List Level) : List Level := stages.dropLast ++ [b]

/-- `s` at `IDLE_POLL` in a cycle without reset. -/
def State.placeIdle (s : State) : State :=
  State.enter { s with inputs := { s.now with rst := false } :: s.inputs.tail } .idle

/-- A legal command word in the pending latch, and no start condition that would go first (R90): a
data fall in this cycle is taken back. A word that a CMD write would refuse is not latched (R94). -/
def State.placeCommand (s : State) (d : Byte) : State :=
  match decodeCmd d with
  | .rejected _ => s
  | .instr _ =>
    { s.placeIdle with
      pendValid := true
      pendOp := cmdOp d
      diPrev := if s.startDet then false else s.diPrev }

/-- The pattern `ci di_prev di` on the inbound lines, with start conditions accepted (R77, R90). -/
def State.placeTrigger (s : State) (p : BitVec 3) : State :=
  { s.placeIdle with
    config := s.config ||| 0x01
    clkSync := setLast (p.getLsbD 2) s.clkSync
    diPrev := p.getLsbD 1
    datSync := setLast (p.getLsbD 0) s.datSync }

end Sys2Proof.Machine
end

