-- ==== Sys2Proof/Machine/Step.lean ====
section
/-! DEFINITION. One step of the machine is one cycle of `clk` (spec/00_scope.md R11, R13). -/

namespace Sys2Proof.Machine

/-- One clock cycle: reset (R167), or the cycle of the fetched operation, or one more cycle of
`IDLE_POLL` (R89). DESIGN CHOICE, safe: `rst` is looked at here and not in `exec`
(notes/assumptions/16.md). -/
def step (s : State) : Host.Outcome State Fault Refusal :=
  if s.now.rst then .next s.resetEdge
  else
    match s.fetch with
    | none => .next s.idleCycle
    | some (.instr i) => exec i s
    | some (.rejected _) => .refused (.reservedOpcode s.pendOp)

/-- `s` with the operation of a row of the opcode table placed where `step` finds its next one
(DESIGN CHOICE, safe, notes/assumptions/8.md). -/
def State.withFetchWord (s : State) (nbits w : Nat) : State :=
  match tableEncoding nbits w with
  | none => s
  | some (.cmd8 d) => s.placeCommand d
  | some (.line3 p) => s.placeTrigger p

end Sys2Proof.Machine
end

