-- ==== Sys2Proof/Machine/Ring.lean ====
section
/-! DEFINITION. Several nodes in the reference synchronous composition (spec/60_exceptions.md R160
and R161): every node evaluates its cycle from its own state, and the level of an input pin during
a cycle is the level of the output register that drives it during that cycle. DESIGN CHOICE: only
this composition (notes/assumptions/10.md), and the first of two downstream neighbours is heard
(notes/assumptions/18.md). -/

namespace Sys2Proof.Machine

/-- The nodes, and for each node the index of its upstream neighbour, if it has one (R160). -/
structure Ring where
  nodes : List State
  up : List (Option Nat)
  deriving DecidableEq, Repr

/-- The upstream neighbour of node `i`. -/
def Ring.upstream (r : Ring) (i : Nat) : Option State :=
  (r.up.getD i none).bind fun u => r.nodes[u]?

/-- The downstream neighbour of node `i`: the node whose upstream neighbour it is. -/
def Ring.downstream (r : Ring) (i : Nat) : Option State :=
  (r.up.findIdx? fun u => u == some i).bind fun d => r.nodes[d]?

/-- A node with its input pins of this cycle replaced. -/
def State.withPins (s : State) (clk dat ack : Level) : State :=
  { s with inputs := { s.now with clkIn := clk, datIn := dat, ackIn := ack } :: s.inputs.tail }

/-- Node `i` with its pins wired to its neighbours; a pin that nothing drives is held at 1 (R160). -/
def Ring.wired (r : Ring) (i : Nat) (s : State) : State :=
  s.withPins
    (match r.upstream i with | some u => u.clkOut | none => true)
    (match r.upstream i with | some u => u.datOut | none => true)
    (match r.downstream i with | some d => d.ackOut | none => true)

/-- One cycle of every node of a list, or the refusal of the first that has none. -/
def stepAll : List State → Host.Outcome (List State) Fault Refusal
  | [] => .next []
  | s :: ss =>
    match step s with
    | .fault f => .fault f
    | .refused e => .refused e
    | .next s' =>
      match stepAll ss with
      | .fault f => .fault f
      | .refused e => .refused e
      | .next ss' => .next (s' :: ss')

/-- One cycle of the ring (R161). -/
def Ring.step (r : Ring) : Host.Outcome Ring Fault Refusal :=
  match stepAll (r.nodes.mapIdx r.wired) with
  | .fault f => .fault f
  | .refused e => .refused e
  | .next ss => .next { r with nodes := ss }

/-- `n` cycles of the ring. -/
def Ring.run : Nat → Ring → Host.Outcome Ring Fault Refusal
  | 0, r => .next r
  | n + 1, r =>
    match r.step with
    | .next r' => Ring.run n r'
    | .fault f => .fault f
    | .refused e => .refused e

/-- A chain of nodes: node 0 has no upstream neighbour, node `i + 1` receives from node `i` (R160). -/
def Ring.chain (nodes : List State) : Ring where
  nodes := nodes
  up := (List.range nodes.length).map fun i => if i = 0 then none else some (i - 1)

/-- A closed ring: as a chain, and node 0 receives from the last node (R160). -/
def Ring.closed (nodes : List State) : Ring where
  nodes := nodes
  up := (List.range nodes.length).map fun i => some (if i = 0 then nodes.length - 1 else i - 1)

end Sys2Proof.Machine
end

