-- ==== Sys2Proof/Machine/HostScript.lean ====
section
/-! DEFINITION. The host-script notation of spec/30_encoding.md R87 and R88 as an agent: in each
cycle it issues at most one host bus access, and it sees the data its read returns. -/

namespace Sys2Proof.Machine

/-- A statement of a host script (R87), and `POLL` (R88). -/
inductive HostStmt where
  /-- `WR a, d`: one write cycle. -/
  | wr (a : Addr) (d : Byte)
  /-- `RD a => d`: one read cycle whose data the program expects to be `d`. -/
  | rd (a : Addr) (d : Byte)
  /-- `NOPC n`: `n` cycles with no access. -/
  | nopc (n : Nat)
  /-- `@t`: the next statement is issued in cycle `t`. -/
  | at (t : Nat)
  /-- `POLL a, mask, val`: reads, one per cycle, until `h_rdata & mask = val`. -/
  | poll (a : Addr) (mask val : Byte)
  deriving DecidableEq, Repr

/-- `CMD m`: a write of the command word of `m` to CMD (R88). -/
def stmtCmd (i : Instr) : List HostStmt :=
  match encode i with
  | .cmd8 w => [.wr 0x001 w]
  | .line3 _ => []

/-- `CLR a, bits`: a write of 1 to the named event bits (R88). -/
def stmtClr (a : Addr) (bits : Byte) : List HostStmt := [.wr a bits]

/-- The writes of `text` from entry `k` of TX_BUF on (R88). -/
def loadText : Nat → List Byte → List HostStmt
  | _, [] => []
  | k, c :: cs => .wr (BitVec.ofNat 10 (0x100 + k)) c :: loadText (k + 1) cs

/-- `LOADTX dest, text`: TX_LEN, TX_DEST, then the text into TX_BUF, one write per cycle (R88). -/
def stmtLoadTx (dest : Byte) (text : List Byte) : List HostStmt :=
  .wr 0x008 (BitVec.ofNat 8 text.length) :: .wr 0x009 dest :: loadText 0 text

/-- A host: the statements still to issue, the cycle it is in, and the reads whose data were not the
expected ones (address, expected, returned). -/
structure HostAgent where
  script : List HostStmt
  cycle : Nat
  mismatches : List (Addr × Byte × Byte)
  deriving DecidableEq, Repr

/-- A host at cycle 0 with a script. -/
def HostAgent.start (script : List HostStmt) : HostAgent where
  script := script
  cycle := 0
  mismatches := []

/-- A cycle with a write access (R87). -/
def Input.write (a : Addr) (d : Byte) : Input :=
  { Input.undriven with hSel := true, hWe := true, hAddr := a, hWdata := d }

/-- A cycle with a read access (R87). -/
def Input.read (a : Addr) : Input := { Input.undriven with hSel := true, hAddr := a }

/-- A node whose bus inputs of this cycle are those of `x`; its pins and its reset stay. -/
def State.withAccess (s : State) (x : Input) : State :=
  { s with
    inputs :=
      { s.now with hSel := x.hSel, hWe := x.hWe, hAddr := x.hAddr, hWdata := x.hWdata } ::
        s.inputs.tail }

/-- `h_rdata` in this cycle when the host reads address `a` in it: the register's value (R58), 0x00
while `rst` = 1 (R59). -/
def State.readData (s : State) (a : Addr) : Byte := (s.withAccess (Input.read a)).hRdata

/-- What a script does in cycle `t` of a node in state `s`: the input of the cycle, the statements
left after it, and the read mismatches. DEDUCED, safe: `@t` and `NOPC 0` take no cycle of their own
(notes/assumptions/15.md). DESIGN CHOICE, safe: an `@t` whose cycle is already past does not wait,
the next statement is issued at once (notes/assumptions/19.md). -/
def hostAct (t : Nat) (s : State) : List HostStmt → Input × List HostStmt × List (Addr × Byte × Byte)
  | [] => (Input.undriven, [], [])
  | .wr a d :: rest => (Input.write a d, rest, [])
  | .rd a d :: rest =>
    (Input.read a, rest, if s.readData a = d then [] else [(a, d, s.readData a)])
  | .nopc 0 :: rest => hostAct t s rest
  | .nopc 1 :: rest => (Input.undriven, rest, [])
  | .nopc (n + 2) :: rest => (Input.undriven, .nopc (n + 1) :: rest, [])
  | .at t' :: rest => if t < t' then (Input.undriven, .at t' :: rest, []) else hostAct t s rest
  | .poll a mask val :: rest =>
    (Input.read a, if s.readData a &&& mask = val then rest else .poll a mask val :: rest, [])

/-- The host after its cycle beside a node in state `s`. -/
def HostAgent.after (h : HostAgent) (s : State) : HostAgent :=
  let (_, rest, bad) := hostAct h.cycle s h.script
  { script := rest, cycle := h.cycle + 1, mismatches := h.mismatches ++ bad }

/-- A node whose input of this cycle carries the access of its host; pins and reset stay. -/
def HostAgent.drive (h : HostAgent) (s : State) : State :=
  s.withAccess (hostAct h.cycle s h.script).1

/-- A ring with one host per node (R20). -/
structure Bench where
  ring : Ring
  hosts : List HostAgent
  deriving DecidableEq, Repr

/-- One cycle of a ring and its hosts. -/
def Bench.step (b : Bench) : Host.Outcome Bench Fault Refusal :=
  match Ring.step { b.ring with nodes := List.zipWith HostAgent.drive b.hosts b.ring.nodes } with
  | .fault f => .fault f
  | .refused e => .refused e
  | .next r => .next { ring := r, hosts := List.zipWith HostAgent.after b.hosts b.ring.nodes }

/-- `n` cycles of a ring and its hosts. -/
def Bench.run : Nat → Bench → Host.Outcome Bench Fault Refusal
  | 0, b => .next b
  | n + 1, b =>
    match b.step with
    | .next b' => Bench.run n b'
    | .fault f => .fault f
    | .refused e => .refused e

end Sys2Proof.Machine
end

