-- ==== Sys2Proof/Safety.lean ====
section
/-! DEFINITION. The terms that the claims use: runs of cycles, the levels a synchroniser will show,
the invariant of the machine, and the reading of `RecvByte`'s pseudocode as a function of the level
histories (spec/42_protocol.md R114). -/

namespace Sys2Proof

/-! ## Durations (R111, R145) -/

/-- `8*(1 + 2*T_UNIT)`, the cycles of a byte's eight bit cells (R111). -/
def Build.cells (b : Build) : Nat := 8 * (1 + 2 * b.tUnit)

/-- The longest `SendByte`, in cycles (R145). -/
def Build.sendByteMax (b : Build) : Nat := b.cells + b.ackTimeout + b.tUnit

/-- The longest `RecvByte`, in cycles (R145). -/
def Build.recvByteMax (b : Build) : Nat := 19 * b.edgeTimeout

/-- The longest `MsgSend` of `n` bytes, in cycles (R145). -/
def Build.msgSendMax (b : Build) (n : Nat) : Nat := b.retryMax * (4 * b.tDelay + n * b.sendByteMax)

/-- The longest `MsgReceive` with at most `l` payload bytes and no relay, in cycles (R145). -/
def Build.msgReceiveMax (b : Build) (l : Nat) : Nat :=
  (3 + l) * b.recvByteMax + 2 * b.tDelay + b.tSettle

/-- The longest `MsgReceive` with a relay, in cycles (R145). -/
def Build.relayMax (b : Build) : Nat :=
  b.msgReceiveMax b.maxLen + 2 * b.tSettle + b.msgSendMax (3 + b.maxLen)

end Sys2Proof

namespace Sys2Proof.Machine

/-- `n` cycles, stopping at the first fault or refusal. -/
def run : Nat → State → Host.Outcome State Fault Refusal
  | 0, s => .next s
  | n + 1, s =>
    match step s with
    | .next t => run n t
    | .fault f => .fault f
    | .refused r => .refused r

/-- No reset in this cycle and the `n - 1` after it. -/
abbrev State.noReset (s : State) (n : Nat) : Prop := ∀ x ∈ s.inputs.take n, x.rst = false

/-- The environment of `s` without the host access of this cycle. -/
def State.noAccess (s : State) : State :=
  { s with inputs := { s.now with hSel := false } :: s.inputs.tail }

/-- The environment of `s` without the host's write of this cycle, if it is a write to address `a`. -/
def State.noWriteTo (s : State) (a : Addr) : State :=
  if s.now.hSel = true ∧ s.now.hWe = true ∧ s.now.hAddr = a then s.noAccess else s

/-- The host writes `d` to address `a` in this cycle, and `rst` is 0. -/
abbrev State.writes (s : State) (a : Addr) (d : Byte) : Prop :=
  s.now.rst = false ∧ s.now.hSel = true ∧ s.now.hWe = true ∧ s.now.hAddr = a ∧ s.now.hWdata = d

/-- What a synchroniser with the given stages shows `n` cycles later, if the pin has the levels
`pins` from this cycle on (R22): "`ci(t) = CLK_IN(t - SYNC_STAGES)`". -/
def shownAt (stages pins : List Level) (n : Nat) : Level := (stages.reverse ++ pins).getD n true

/-- `ci` in the `n`-th cycle after this one, if no reset comes. -/
def State.ciAt (s : State) (n : Nat) : Level := shownAt s.clkSync (s.inputs.map (·.clkIn)) n

/-- `di` in the `n`-th cycle after this one, if no reset comes. -/
def State.diAt (s : State) (n : Nat) : Level := shownAt s.datSync (s.inputs.map (·.datIn)) n

/-- `ai` in the `n`-th cycle after this one, if no reset comes. -/
def State.aiAt (s : State) (n : Nat) : Level := shownAt s.ackSync (s.inputs.map (·.ackIn)) n

/-- The synchronisers have `SYNC_STAGES` stages each, at least one (R22). -/
abbrev State.syncsOk (s : State) : Prop :=
  1 ≤ s.build.syncStages ∧ s.clkSync.length = s.build.syncStages ∧
    s.datSync.length = s.build.syncStages ∧ s.ackSync.length = s.build.syncStages

/-- The cycle in which operation `i` starts: `IDLE_POLL` ends and chooses it, and `rst` is 0. -/
abbrev State.starts (s : State) (i : Instr) : Prop :=
  s.now.rst = false ∧ s.point = .idle ∧ s.poll = some (.instr i)

/-! ## Failure points and frames -/

/-- DIAG_COUNT as the host's access of this cycle leaves it: any write to it clears it (R49). -/
def State.countAfterHost (s : State) : Byte :=
  if s.now.hSel = true ∧ s.now.hWe = true ∧ s.now.hAddr = 0x012 then 0 else s.diagCount

/-- The events of the step codes (R141). -/
def failureEvents (code : Byte) : List Event :=
  if code = 0x30 then [.txByteFail, .prematureAck]
  else if code = 0x31 then [.txByteFail]
  else if 0x10 ≤ code.toNat ∧ code.toNat ≤ 0x22 then [.rxTimeout]
  else []

/-- Of the events `among`, the cycle that takes `s` to `t` sets exactly those of `es`: every other flag
of them is as the host's access of the cycle leaves it. -/
def setsOf (among : List Event) (s t : State) (es : List Event) : Prop :=
  ∀ e ∈ among, t.flag e = (s.edge.flag e || decide (e ∈ es))

/-- The block sets exactly the events `es` in the cycle that takes `s` to `t`. -/
def setsExactly (s t : State) (es : List Event) : Prop :=
  ∀ e, t.flag e = (s.edge.flag e || decide (e ∈ es))

/-- The events that only a failure point raises. -/
def allFailureEvents : List Event := [.rxTimeout, .txByteFail, .prematureAck]

/-- The cycle that takes `s` to `t` records no failure point: DIAG_LAST and DIAG_POS are unchanged,
DIAG_COUNT is what the host's access leaves, and no event of a failure point is set. -/
def noFailurePoint (s t : State) : Prop :=
  t.diagLast = s.diagLast ∧ t.diagPos = s.diagPos ∧ t.diagCount = s.countAfterHost ∧
    setsOf allFailureEvents s t []

/-- The cycle that takes `s` to `t` records a failure point with step code `code` and DIAG_POS `pos`
(R141): DIAG_COUNT is counted up, saturating, and of the failure events exactly the step code's are
set. -/
def failurePoint (s t : State) (code pos : Byte) : Prop :=
  t.diagLast = code ∧ t.diagPos = pos ∧
    t.diagCount = (if s.countAfterHost = 0xFF then 0xFF else s.countAfterHost + 1) ∧
    setsOf allFailureEvents s t (failureEvents code)

/-- DIAG_POS of a frame position (R48). DEDUCED (notes/assumptions/5.md): 255 records 0xFE. -/
def framePos (p : Nat) : Byte := BitVec.ofNat 8 (min p 254)

/-- The step code of the failure that a `SendByte` meets in this cycle, if it meets one (R142). -/
def SendBytePt.failure (s : State) : SendBytePt → Option Byte
  | .clockLow _ => none
  | .dataLow _ => none
  | .clockHigh j =>
    if j = 7 ∧ s.build.tUnit ≤ s.cnt + 1 ∧ s.ai = false then some 0x30 else none
  | .ackWait => if s.build.ackTimeout ≤ s.cnt + 1 ∧ s.ai = true then some 0x31 else none
  | .ackPulse => none

/-- The step code of the timeout that a `RecvByte` meets in this cycle, if it meets one: the awaited
clock level has not come in `EDGE_TIMEOUT` cycles (R86, R114, R142). -/
def RecvBytePt.failure (s : State) (q : RecvBytePt) : Option Byte :=
  let (awaited, code) : Level × Nat :=
    match q with
    | .fall j => (false, 0x10 + j.val)
    | .rise j => (true, 0x18 + j.val)
    | .ackRequest => (false, 0x20)
    | .ackRise => (true, 0x21)
    | .ackFall => (false, 0x22)
  if s.build.edgeTimeout ≤ s.cnt + 1 ∧ s.ci ≠ awaited then some (BitVec.ofNat 8 code) else none

/-- The `RecvByte` of a reception and the frame position of its byte (R84, R129). -/
def MsgReceivePt.byte? : MsgReceivePt → Option (RecvByteAct × Nat)
  | .length a => some (a, 0)
  | .recipient a => some (a, 1)
  | .sender a => some (a, 2)
  | .drain k a => some (a, 3 + k)
  | .payload k a => some (a, 3 + k)
  | .oversizeStop _ => none
  | .oversizeSettle => none
  | .stop _ => none
  | .settle => none
  | .relayBefore => none
  | .relay _ => none
  | .relayAfter => none

/-- The failure that a `MsgSend` meets in this cycle: its step code and DIAG_POS. -/
def MsgSendAct.failure (s : State) (m : MsgSendAct) : Option (Byte × Byte) :=
  match m.pt with
  | .start _ => none
  | .byte a => (a.pt.failure s).map fun c => (c, framePos m.p)
  | .stop _ => none

/-- The failure that the running operation meets in this cycle, if it meets one: its step code and
DIAG_POS (R142, R48). -/
def Point.failure (s : State) : Point → Option (Byte × Byte)
  | .idle => none
  | .phyStart _ => none
  | .phyStop _ => none
  | .sendByte a => (a.pt.failure s).map fun c => (c, 0xFF)
  | .recvByte a => (a.pt.failure s).map fun c => (c, 0xFF)
  | .sendMsg m => m.failure s
  | .receive (.relay m) => m.failure s
  | .receive q => q.byte?.bind fun b => (b.1.pt.failure s).map fun c => (c, framePos b.2)

/-! ## The events of a cycle (R151) -/

/-- The events of the failure that the cycle meets. -/
def State.failureEvents (s : State) : List Event :=
  match s.point.failure s with
  | none => []
  | some f => Sys2Proof.Machine.failureEvents f.1

/-- The event of the end of a `MsgSend` (R124). -/
def MsgSendAct.endEvent (m : MsgSendAct) : Event := if m.fail then .sendFailed else .sendOk

/-- The events, beside a failure's, of a cycle of a reception that takes `s` to `t` (R89, R129): at its
start; at the end of the header, for a stale echo and for an oversize message; at its end. DEDUCED,
unsafe: that OVERSIZE comes with the header (notes/assumptions/14.md). -/
def receptionEvents (s t : State) : List Event :=
  match s.point with
  | .idle => [.startSeen]
  | .receive (.sender _) =>
    match t.point with
    | .idle => [.staleEcho]
    | .receive (.drain _ _) => [.oversize]
    | .receive (.oversizeStop _) => [.oversize]
    | _ => []
  | .receive .settle =>
    if t.point = .idle then
      [if s.frameDest = s.build.nodeId then .msgDelivered else .msgDropped]
    else []
  | .receive (.relay m) =>
    match t.point with
    | .idle => [m.endEvent, .msgRelayed]
    | .receive .relayAfter => [m.endEvent]
    | _ => []
  | .receive .relayAfter => if t.point = .idle then [.msgRelayed] else []
  | _ => []

/-- The events that a cycle of operation `i` sets, when it takes `s` to `t` (R97, R151). -/
def cycleEvents (i : Instr) (s t : State) : List Event :=
  s.failureEvents ++
    match i with
    | .nop => [.cmdDone]
    | .linesIdle => [.cmdDone]
    | .phyStart => if t.point = .idle then [.cmdDone] else []
    | .phyStop => if t.point = .idle then [.cmdDone] else []
    | .sendByte => if t.point = .idle then [.cmdDone] else []
    | .recvByte => if t.point = .idle then [.cmdDone] else []
    | .sendMsg =>
      match s.point, t.point with
      | .sendMsg m, .idle => [m.endEvent, .cmdDone]
      | _, _ => []
    | .msgReceive => receptionEvents s t

/-- The byte at a frame position: length, recipient, sender, payload (R83, R84). -/
def wireByte (length recipient sender : Byte) (payload : Nat → Byte) : Nat → Byte
  | 0 => length
  | 1 => recipient
  | 2 => sender
  | k + 3 => payload k

/-- The control point at which a `MsgSend` stands: in a SEND_MSG, or in the relay of a reception. -/
def msgSendPoint : FrameSource → MsgSendAct → Point
  | .tx, m => .sendMsg m
  | .frame, m => .receive (.relay m)

/-! ## What the cycles of an operation share -/

/-- What the cycle of a command does with the registers of its completion and with its marks: while
the command goes on CMD_RESULT, RX_BYTE and LAST_ATTEMPTS stay (R43, R46, R50, R97); `cmd_act` is set
by the dispatch and cleared by the completion, and the dispatch clears the latch (R89, R96). -/
def commandRegisters (s t : State) : Prop :=
  (t.point ≠ .idle →
    t.cmdResult = s.cmdResult ∧ t.rxByte = s.rxByte ∧ t.lastAttempts = s.lastAttempts) ∧
  t.cmdAct = (if t.point = .idle then false else if s.point = .idle then true else s.cmdAct) ∧
  t.pendValid = (if s.point = .idle then false else s.edge.pendValid)

/-- The cycle from `s` ends its timed statement without a failure: the next one begins at the control
point `p`, with the clock line at `clk` and the data line at `dat`; ACK_OUT stays. -/
def State.leadsTo (s : State) (p : Point) (clk dat : Level) : Prop :=
  ∃ t, step s = .next t ∧ t.point = p ∧ t.cnt = 0 ∧ t.clkOut = clk ∧ t.datOut = dat ∧
    t.ackOut = s.ackOut ∧ noFailurePoint s t

/-! ## The invariant -/

/-- How many cycles the timed statement at a control point can take (R12). -/
def SendBytePt.limit (b : Build) : SendBytePt → Nat
  | .clockLow _ => 1
  | .dataLow _ => b.tUnit
  | .clockHigh _ => b.tUnit
  | .ackWait => b.ackTimeout
  | .ackPulse => b.tUnit

/-- How many cycles the timed statement at a control point of `MsgSend` can take. -/
def MsgSendAct.limit (b : Build) (m : MsgSendAct) : Nat :=
  match m.pt with
  | .start _ => b.tDelay
  | .byte a => a.pt.limit b
  | .stop _ => b.tDelay

/-- How many cycles the timed statement at a control point of `MsgReceive` can take. -/
def MsgReceivePt.limit (b : Build) : MsgReceivePt → Nat
  | .length _ => b.edgeTimeout
  | .recipient _ => b.edgeTimeout
  | .sender _ => b.edgeTimeout
  | .drain _ _ => b.edgeTimeout
  | .oversizeStop _ => b.tDelay
  | .oversizeSettle => b.tSettle
  | .payload _ _ => b.edgeTimeout
  | .stop _ => b.tDelay
  | .settle => b.tSettle
  | .relayBefore => b.tSettle
  | .relay m => m.limit b
  | .relayAfter => b.tSettle

/-- How many cycles the timed statement at a control point can take; `cnt` stays below it. -/
def Point.limit (b : Build) : Point → Nat
  | .idle => 1
  | .phyStart _ => b.tDelay
  | .phyStop _ => b.tDelay
  | .sendByte a => a.pt.limit b
  | .recvByte _ => b.edgeTimeout
  | .sendMsg m => m.limit b
  | .receive q => q.limit b

/-- The control point is inside `MsgReceive` (R26). -/
def Point.inReceive : Point → Bool
  | .receive _ => true
  | _ => false

/-- The control point is inside `MsgSend` (R26). -/
def Point.inSend : Point → Bool
  | .sendMsg _ => true
  | .receive (.relay _) => true
  | _ => false

/-- The control point is in the relay of a reception or in one of its brackets (R136, R137). -/
def Point.relaying : Point → Bool
  | .receive .relayBefore => true
  | .receive (.relay _) => true
  | .receive .relayAfter => true
  | _ => false

/-- The control point is inside a host command (R26). -/
def Point.inCommand (p : Point) : Bool := p != .idle && !p.inReceive

/-- The locals of a `MsgSend`: the attempt is one of `RETRY_MAX`, the frame position is one of the
frame's, and the byte being sent is the frame's byte there (R123, R124). -/
def MsgSendAct.ok (s : State) (m : MsgSendAct) : Prop :=
  1 ≤ m.attempt ∧ m.attempt ≤ s.build.retryMax ∧
    match m.pt with
    | .start _ => m.fail = false ∧ m.p = 0
    | .byte a => m.p < s.frameCount m.src ∧ a.v = s.frameByte m.src m.p
    | .stop _ => m.p + 1 = s.frameCount m.src

/-- FRAME holds no stale echo (R130). -/
def State.notStale (s : State) : Prop :=
  ¬(s.frameSrc = s.build.nodeId ∧ s.frameDest ≠ s.build.nodeId)

/-- FRAME holds a message to relay: of another node, not for this node, not empty, not oversize. -/
def State.relayable (s : State) : Prop :=
  s.frameDest ≠ s.build.nodeId ∧ s.frameSrc ≠ s.build.nodeId ∧ 0 < s.frameLen.toNat ∧
    s.frameLen.toNat ≤ s.build.maxLen

/-- What holds of FRAME and the locals at a control point of `MsgReceive` (R129). -/
def MsgReceivePt.ok (s : State) : MsgReceivePt → Prop
  | .length _ => True
  | .recipient _ => True
  | .sender _ => True
  | .drain k _ => s.build.maxLen < s.frameLen.toNat ∧ k < s.frameLen.toNat ∧ s.notStale
  | .oversizeStop _ => s.build.maxLen < s.frameLen.toNat ∧ s.notStale
  | .oversizeSettle => s.build.maxLen < s.frameLen.toNat ∧ s.notStale
  | .payload k _ => s.frameLen.toNat ≤ s.build.maxLen ∧ k < s.frameLen.toNat ∧ s.notStale
  | .stop _ => s.frameLen.toNat ≤ s.build.maxLen ∧ s.notStale
  | .settle => s.frameLen.toNat ≤ s.build.maxLen ∧ s.notStale
  | .relayBefore => s.relayable
  | .relay m => s.relayable ∧ m.src = .frame ∧ m.ok s
  | .relayAfter => s.relayable

/-- What holds of the locals at a control point. -/
def Point.ok (s : State) : Point → Prop
  | .idle => True
  | .phyStart _ => True
  | .phyStop _ => True
  | .sendByte a => a.v = s.txByte
  | .recvByte _ => True
  | .sendMsg m => s.txLen.toNat ≤ s.build.maxLen ∧ m.src = .tx ∧ m.ok s
  | .receive q => q.ok s

/-- A buffer of `n` entries in its canonical form. -/
abbrev Memory.ok (n : Nat) (m : Memory) : Prop := m.wf = true ∧ m.within n = true

/-- Every value that DIAG_LAST can hold (R86). -/
def stepCodeOk (c : Byte) : Bool :=
  c == 0x00 || (decide (0x10 ≤ c.toNat) && decide (c.toNat ≤ 0x22)) || c == 0x30 || c == 0x31

/-- The invariant of the machine: it holds after reset, and every step keeps it. -/
structure State.Inv (s : State) : Prop where
  /-- The parameters have admitted values (R7). -/
  build_ok : s.build.wf = true
  /-- The synchronisers have their depth (R22). -/
  syncs_ok : s.syncsOk
  /-- The buffers hold `MAX_LEN` entries, in canonical form (R28, R42, R45). -/
  txBuf_ok : s.txBuf.ok s.build.maxLen
  rxStore_ok : s.rxStore.ok s.build.maxLen
  framePay_ok : s.framePay.ok s.build.maxLen
  /-- Reserved bits are 0 (R33, R34, R38, R46). -/
  config_ok : s.config &&& 0xF8 = 0
  irqEn1_ok : s.irqEn1 &&& 0x80 = 0
  event1_ok : s.event1 &&& 0x80 = 0
  cmdResult_ok : s.cmdResult &&& 0xFE = 0
  /-- DIAG_LAST holds a step code (R86). -/
  diagLast_ok : stepCodeOk s.diagLast = true
  /-- LAST_ATTEMPTS and RX_LEN are within their ranges (R44, R50, R132). -/
  lastAttempts_ok : s.lastAttempts.toNat ≤ s.build.retryMax
  rxLen_ok : s.rxLen.toNat ≤ s.build.maxLen
  /-- The counter is within its timed statement (R12, R25). -/
  cnt_ok : s.cnt < s.point.limit s.build
  /-- The activity flags say where the control point is (R26). -/
  rxAct_ok : s.rxAct = s.point.inReceive
  txAct_ok : s.txAct = s.point.inSend
  cmdAct_ok : s.cmdAct = s.point.inCommand
  /-- No command is pending while one runs (R93, R96). -/
  pend_ok : s.point.inCommand = true → s.pendValid = false
  /-- The latch never holds a reserved opcode (R94, R95). -/
  pendOp_ok : s.pendOp.toNat ≤ 6
  /-- A pending SEND_MSG has a message that fits (R94). -/
  pendMsg_ok : s.pendValid = true → s.pendOp = 1 → s.txLen.toNat ≤ s.build.maxLen
  /-- The locals of the control point (R25). -/
  point_ok : s.point.ok s

/-! ## Levels at the control points -/

/-- The outputs at a control point of `SendByte` of the byte `v` (R81, R82): in bit cell `j` the data
line carries bit `7-j` but in the cell's first cycle, where it still has the cell before's bit; after
the last cell it carries bit 0. -/
def SendBytePt.linesOk (s : State) (v : Byte) : SendBytePt → Prop
  | .clockLow j => s.clkOut = false ∧ (0 < j.val → s.datOut = v.getLsbD (8 - j.val))
  | .dataLow j => s.clkOut = false ∧ s.datOut = v.getLsbD (7 - j.val)
  | .clockHigh j => s.clkOut = true ∧ s.datOut = v.getLsbD (7 - j.val)
  | .ackWait => s.clkOut = false ∧ s.datOut = v.getLsbD 0
  | .ackPulse => s.clkOut = true ∧ s.datOut = v.getLsbD 0

/-- The outputs at a control point of `PhyStart` (R79). -/
def PhyStartPt.linesOk (s : State) : PhyStartPt → Prop
  | .high => s.clkOut = true ∧ s.datOut = true
  | .low => s.clkOut = true ∧ s.datOut = false

/-- The outputs at a control point of `PhyStop` (R80). -/
def PhyStopPt.linesOk (s : State) : PhyStopPt → Prop
  | .clock => s.clkOut = true
  | .data => s.clkOut = true ∧ s.datOut = true

/-- ACK_OUT at a control point of `RecvByte`: low from the request to the end of the 9th pulse (R82,
R114). -/
def RecvBytePt.linesOk (s : State) : RecvBytePt → Prop
  | .fall _ => s.ackOut = true
  | .rise _ => s.ackOut = true
  | .ackRequest => s.ackOut = true
  | .ackRise => s.ackOut = false
  | .ackFall => s.ackOut = false

/-- The outputs at a control point of `MsgSend`. -/
def MsgSendPt.linesOk (s : State) : MsgSendPt → Prop
  | .start q => q.linesOk s
  | .byte a => a.pt.linesOk s a.v
  | .stop q => q.linesOk s

/-- The outputs at a control point of `MsgReceive`. -/
def MsgReceivePt.linesOk (s : State) : MsgReceivePt → Prop
  | .length a => a.pt.linesOk s
  | .recipient a => a.pt.linesOk s
  | .sender a => a.pt.linesOk s
  | .drain _ a => a.pt.linesOk s
  | .oversizeStop q => q.linesOk s
  | .oversizeSettle => s.clkOut = true ∧ s.datOut = true
  | .payload _ a => a.pt.linesOk s
  | .stop q => q.linesOk s
  | .settle => s.clkOut = true ∧ s.datOut = true
  | .relayBefore => s.clkOut = true ∧ s.datOut = true ∧ s.ackOut = true
  | .relay m => m.pt.linesOk s
  | .relayAfter => s.clkOut = true ∧ s.datOut = true ∧ s.ackOut = true

/-- The outputs are what the waveforms of R79 to R82 show at the control point. -/
def State.linesOk (s : State) : Prop :=
  match s.point with
  | .idle => True
  | .phyStart q => q.linesOk s
  | .phyStop q => q.linesOk s
  | .sendByte a => a.pt.linesOk s a.v
  | .recvByte a => a.pt.linesOk s
  | .sendMsg m => m.pt.linesOk s
  | .receive q => q.linesOk s

/-- A node at rest: at `IDLE_POLL` with no command pending, and every level it sees, remembers or
drives is the idle level (R78, R163). -/
def State.atRest (s : State) : Prop :=
  s.point = .idle ∧ s.pendValid = false ∧
    (∀ x ∈ s.clkSync ++ s.datSync ++ s.ackSync, x = true) ∧ s.diPrev = true ∧
    s.clkOut = true ∧ s.datOut = true ∧ s.ackOut = true

/-- The `SendByte` that is running, if one is. -/
def Point.sending? : Point → Option SendByteAct
  | .sendByte a => some a
  | .sendMsg ⟨_, _, _, _, .byte a⟩ => some a
  | .receive (.relay ⟨_, _, _, _, .byte a⟩) => some a
  | _ => none

/-- The `RecvByte` that is running, if one is. -/
def Point.receiving? : Point → Option RecvByteAct
  | .recvByte a => some a
  | .receive (.length a) => some a
  | .receive (.recipient a) => some a
  | .receive (.sender a) => some a
  | .receive (.drain _ a) => some a
  | .receive (.payload _ a) => some a
  | _ => none

/-- The accumulator after `j` sampled bits holds them in bits `j` .. 1, zero elsewhere (R116). -/
def RecvByteAct.accOk (a : RecvByteAct) : Prop :=
  match a.pt with
  | .fall j => a.acc.toNat < 2 ^ (j.val + 1) ∧ a.acc.getLsbD 0 = false
  | .rise j => a.acc.toNat < 2 ^ (j.val + 1) ∧ a.acc.getLsbD 0 = false
  | .ackRequest => True
  | .ackRise => True
  | .ackFall => True

/-! ## `RecvByte` as a function of the level histories -/

/-- `WAIT(cond, L)` begun in cycle `c`: the cycle in which it is satisfied, if it is (R12). -/
def waitFrom (cond : Nat → Bool) (c : Nat) : Nat → Option Nat
  | 0 => none
  | n + 1 => if cond c then some c else waitFrom cond (c + 1) n

/-- What a `RecvByte` returns: the accumulator, the step code (0x00 on success) and the cycle in
which its `return` runs. -/
structure RecvResult where
  acc : Byte
  code : Byte
  last : Nat
  deriving DecidableEq, Repr

/-- The handshake of R114 after the eighth bit, begun in cycle `c`. -/
def recvTail (limit : Nat) (ci : Nat → Level) (acc : Byte) (c : Nat) : RecvResult :=
  match waitFrom (fun t => !ci t) c limit with
  | none => ⟨acc, 0x20, c + limit - 1⟩
  | some c1 =>
    match waitFrom ci (c1 + 1) limit with
    | none => ⟨acc, 0x21, c1 + limit⟩
    | some c2 =>
      match waitFrom (fun t => !ci t) (c2 + 1) limit with
      | none => ⟨acc, 0x22, c2 + limit⟩
      | some c3 => ⟨acc, 0x00, c3⟩

/-- The pseudocode of `RecvByte` (R114) with `m` bits still to come, begun in cycle `c`, read off the
level histories `ci` and `di` with timeouts of `limit` cycles. -/
def recvFrom (limit : Nat) (ci di : Nat → Level) (acc : Byte) (c : Nat) : Nat → RecvResult
  | 0 => recvTail limit ci acc c
  | m + 1 =>
    match waitFrom (fun t => !ci t) c limit with
    | none => ⟨acc, BitVec.ofNat 8 (0x10 + (7 - m)), c + limit - 1⟩
    | some c1 =>
      match waitFrom ci (c1 + 1) limit with
      | none => ⟨acc, BitVec.ofNat 8 (0x18 + (7 - m)), c1 + limit⟩
      | some c2 =>
        recvFrom limit ci di
          (if m = 0 then acc ||| zext8 (di c2) else (acc ||| zext8 (di c2)) <<< 1) (c2 + 1) m

/-- `RecvByte` begun in cycle `c` (R114). -/
def recvByteFrom (limit : Nat) (ci di : Nat → Level) (c : Nat) : RecvResult :=
  recvFrom limit ci di 0 c 8

/-- `n` consecutive `RecvByte`s begun in cycle `c`: the bytes, and the cycle after the last return. -/
def recvBytesFrom (limit : Nat) (ci di : Nat → Level) (c : Nat) : Nat → List Byte × Nat
  | 0 => ([], c)
  | n + 1 =>
    let r := recvByteFrom limit ci di c
    let rest := recvBytesFrom limit ci di (r.last + 1) n
    (r.acc :: rest.1, rest.2)

/-- The `RecvByte`s of a message whose start condition `s` sees in this cycle: the first begins in
the next cycle (R129). -/
def State.received (s : State) (n : Nat) : List Byte × Nat :=
  recvBytesFrom s.build.edgeTimeout s.ciAt s.diAt 1 n

end Sys2Proof.Machine
end

