-- ==== Sys2Proof/Certificates/Slice0/Obligations.lean ====
section
/-! DEFINITION. The statements for the provers. A statement about a run of cycles names the cycle in
which the operation starts as cycle 0; `t` is the state in cycle 1 and `run n t` the state in cycle
`1 + n`. Build parameters are those of the state, so every statement is about every build. Levels
and accesses past the end of `inputs` are undriven ones (notes/assumptions/3.md). -/

open Sys2Proof Sys2Proof.Machine

/-! ## Encodings -/

/-- R73: the opcode map, and every other opcode is rejected. -/
def Obligations.OpcodeMap : Prop :=
  decodeCmd 0b00000000#8 = .instr .nop ∧ decodeCmd 0b00000001#8 = .instr .sendMsg ∧
  decodeCmd 0b00000010#8 = .instr .phyStart ∧ decodeCmd 0b00000011#8 = .instr .phyStop ∧
  decodeCmd 0b00000100#8 = .instr .sendByte ∧ decodeCmd 0b00000101#8 = .instr .recvByte ∧
  decodeCmd 0b00000110#8 = .instr .linesIdle ∧
  ∀ w : BitVec 8, 7 ≤ (w.extractLsb' 0 4).toNat → ∃ e, decodeCmd w = .rejected e

/-- R72 to R74, R77: decode and encode agree in both directions. -/
def Obligations.DecodeAndEncodeAgree : Prop :=
  (∀ i : Instr, i.wf = true → (encode i).wf = true ∧ decode (encode i) = .instr i) ∧
  (∀ (e : Encoding) (i : Instr), decode e = .instr i → encode i = e) ∧
  ∀ e : Encoding, (∃ i, decode e = .instr i) ↔ e.wf = true

/-! ## The main loop -/

/-- Every cycle without reset is the cycle of the operation that the control point or `IDLE_POLL`
gives. `step` adds nothing around `exec`: the clock edge's own part is in the meaning. -/
def Obligations.StepRunsTheFetchedOperation : Prop :=
  ∀ (s : State) (i : Instr), s.now.rst = false → s.fetch = some (.instr i) → step s = exec i s

/-- R90: what ends `IDLE_POLL`, and the start condition goes first; and R22, R23: without a host write
the clock edge changes only the synchronisers and `di_prev` (and brings up the next cycle's inputs). -/
def Obligations.StartConditionGoesBeforeCommand : Prop :=
  (∀ s : State, (s.now.hSel && s.now.hWe) = false → s.edge = { s with
    clkSync := s.edge.clkSync, datSync := s.edge.datSync, ackSync := s.edge.ackSync,
    diPrev := s.di, inputs := s.inputs.tail }) ∧
  ∀ s : State, s.now.rst = false → s.point = .idle →
    (s.autoRx = true ∧ s.startDet = true →
      ∃ t, step s = .next t ∧ exec .msgReceive s = .next t ∧ t.point.inReceive = true ∧
        (s.pendValid = true → t.pendValid = true ∧ t.pendOp = s.pendOp ∧ t.busy = true)) ∧
    (¬(s.autoRx = true ∧ s.startDet = true) → s.pendValid = true →
      ∀ i, decodeCmd (0#4 ++ s.pendOp) = .instr i → step s = exec i s) ∧
    (¬(s.autoRx = true ∧ s.startDet = true) → s.pendValid = false → step s = .next s.edge)

/-- R91: `start_det` is a fall of the synchronised data since the previous cycle with the clock high. -/
def Obligations.StartDetectionSeesTheFall : Prop :=
  ∀ s t : State, s.now.rst = false → step s = .next t →
    (t.startDet = true ↔ t.ci = true ∧ s.di = true ∧ t.di = false)

/-- R99: a running operation goes on whatever operation is asked for, until it ends. That `exec` of
another operation is then the cycle of the running one is the model's form (DEDUCED,
notes/assumptions/4.md). -/
def Obligations.RunningOperationGoesOn : Prop :=
  ∀ (s : State) (i : Instr), s.now.rst = false → s.point ≠ .idle →
    exec i s = step s ∧
    ∃ t, step s = .next t ∧ (t.point = .idle ∨ t.point.instr = s.point.instr)

/-- R167, R169: reset takes everything back but the build parameters; only the inputs go on. -/
def Obligations.ResetAbandonsEverything : Prop :=
  ∀ s : State, s.now.rst = true → step s = .next (State.resetOf s.build s.inputs.tail)

/-- R53: the reset values, the host's registers through their reads. -/
def Obligations.ResetValues : Prop :=
  ∀ (b : Build) (xs : List Input),
    let s := State.resetOf b xs
    (s.clkOut = true ∧ s.datOut = true ∧ s.ackOut = true) ∧
    (∀ x ∈ s.clkSync ++ s.datSync ++ s.ackSync, x = true) ∧ s.diPrev = true ∧
    s.point = .idle ∧ s.cnt = 0 ∧ s.rxAct = false ∧ s.txAct = false ∧ s.cmdAct = false ∧
    s.pendValid = false ∧ s.pendOp = 0 ∧
    s.frameLen = 0 ∧ s.frameDest = 0 ∧ s.frameSrc = 0 ∧ (∀ k, s.framePay.read k = 0) ∧
    (∀ k, s.rxStore.read k = 0) ∧ s.irq = false ∧
    s.readReg .id = b.nodeId ∧ s.readReg .config = 0x05 ∧ s.readReg .lines = 0x3F ∧
    s.readReg .paramMaxLen = BitVec.ofNat 8 b.maxLen ∧
    s.readReg .paramRetry = BitVec.ofNat 8 b.retryMax ∧
    ∀ r : Reg, r ≠ .id → r ≠ .config → r ≠ .lines → r ≠ .paramMaxLen → r ≠ .paramRetry →
      s.readReg r = 0

/-! ## Host accesses -/

/-- R58: a read returns the register of its cycle and has no side effect. While `rst` is 1 reads
return 0x00 (R59). -/
def Obligations.HostReadHasNoSideEffect : Prop :=
  ∀ s : State,
    (s.now.hWe = false → step s = step s.noAccess) ∧
    (s.now.rst = false → s.now.hSel = true → s.now.hWe = false →
      s.hRdata = s.hostRead s.now.hAddr) ∧
    (s.now.hSel = false ∨ s.now.hWe = true ∨ s.now.rst = true → s.hRdata = 0)

/-- R93: a CMD write while BUSY sets CMD_REJECTED and changes nothing else. -/
def Obligations.BusyCmdWriteIsRejected : Prop :=
  ∀ (s t : State) (d : Byte), s.writes 0x001 d → s.busy = true → step s.noAccess = .next t →
    step s = .next (t.raise .cmdRejected)

/-- R94: an illegal CMD write sets CMD_ILLEGAL and changes nothing else. -/
def Obligations.IllegalCmdWriteIsRefused : Prop :=
  ∀ (s t : State) (d : Byte), s.writes 0x001 d → s.busy = false → step s.noAccess = .next t →
    d.extractLsb' 4 4 ≠ 0#4 ∨ 7 ≤ (d.extractLsb' 0 4).toNat ∨
      (d.extractLsb' 0 4 = 1#4 ∧ s.build.maxLen < s.txLen.toNat) →
    step s = .next (t.raise .cmdIllegal)

/-- R95: any other CMD write while BUSY = 0 is latched, and the block is BUSY from the next cycle. -/
def Obligations.LegalCmdWriteIsLatched : Prop :=
  ∀ (s t : State) (d : Byte), s.writes 0x001 d → s.busy = false → step s.noAccess = .next t →
    d.extractLsb' 4 4 = 0#4 → (d.extractLsb' 0 4).toNat < 7 →
    ¬(d.extractLsb' 0 4 = 1#4 ∧ s.build.maxLen < s.txLen.toNat) →
    ∃ u, step s = .next u ∧ u = { t with pendValid := true, pendOp := d.extractLsb' 0 4 } ∧
      u.busy = true

/-- R60: TX writes while BUSY. -/
def Obligations.BusyTxWriteIsIgnored : Prop :=
  ∀ (s t : State) (a : Addr) (d : Byte), s.writes a d → s.busy = true →
    step s.noAccess = .next t →
    (a.toNat = 0x008 ∨ a.toNat = 0x009 ∨ a.toNat = 0x00A ∨
      (0x100 ≤ a.toNat ∧ a.toNat < 0x200 ∧ a.toNat - 0x100 < s.build.maxLen) →
      step s = .next (t.raise .wrIgnored)) ∧
    (0x100 ≤ a.toNat ∧ a.toNat < 0x200 ∧ s.build.maxLen ≤ a.toNat - 0x100 → step s = .next t)

/-- R39 to R42: a TX write while BUSY = 0 changes the one register, and nothing else of what the same
cycle does without the access; TX_BUF is seen through the host's reads of the next cycle. -/
def Obligations.IdleTxWriteIsStored : Prop :=
  ∀ (s t : State) (a : Addr) (d : Byte), s.writes a d → s.busy = false → s.txBuf.wf = true →
    step s.noAccess = .next t →
    a.toNat = 0x008 ∨ a.toNat = 0x009 ∨ a.toNat = 0x00A ∨
      (0x100 ≤ a.toNat ∧ a.toNat < 0x200 ∧ a.toNat - 0x100 < s.build.maxLen) →
    ∃ u, step s = .next u ∧
      (a.toNat = 0x008 → u = { t with txLen := d }) ∧
      (a.toNat = 0x009 → u = { t with txDest := d }) ∧
      (a.toNat = 0x00A → u = { t with txByte := d }) ∧
      (0x100 ≤ a.toNat → u = { t with txBuf := u.txBuf }) ∧
      ∀ b : Addr, b.toNat = 0x008 ∨ b.toNat = 0x009 ∨ b.toNat = 0x00A ∨
          (0x100 ≤ b.toNat ∧ b.toNat < 0x200) →
        u.hostRead b = if b = a then d else s.hostRead b

/-- R33, R34: CONFIG and the interrupt masks take their writable bits at the edge; the segment of the
cycle itself does not see them. -/
def Obligations.ConfigAndMaskWritesLandAtTheEdge : Prop :=
  ∀ (s t : State) (a : Addr) (d : Byte), s.writes a d → step s.noAccess = .next t →
    (a.toNat = 0x005 → step s = .next { t with irqEn0 := d }) ∧
    (a.toNat = 0x006 → step s = .next { t with irqEn1 := d &&& 0x7F }) ∧
    (a.toNat = 0x007 → step s = .next { t with config := d &&& 0x07 })

/-- R57: reads that return 0, writes that have no effect, and reserved bits, which read 0 and ignore
writes. -/
def Obligations.ReservedAndReadOnlyAccesses : Prop :=
  (∀ (s : State) (a : Addr),
    a.toNat = 0x001 ∨ (0x017 ≤ a.toNat ∧ a.toNat ≤ 0x0FF) ∨ 0x300 ≤ a.toNat ∨
      (0x100 ≤ a.toNat ∧ a.toNat < 0x200 ∧ s.build.maxLen ≤ a.toNat - 0x100) ∨
      (0x200 ≤ a.toNat ∧ a.toNat < 0x300 ∧ s.build.maxLen ≤ a.toNat - 0x200) →
    s.hostRead a = 0) ∧
  (∀ s : State, s.Inv →
    s.readReg .status &&& 0xC0 = 0 ∧ s.readReg .event1 &&& 0x80 = 0 ∧
    s.readReg .irqEn1 &&& 0x80 = 0 ∧ s.readReg .config &&& 0xF8 = 0 ∧
    s.readReg .cmdResult &&& 0xFE = 0 ∧ s.readReg .lines &&& 0xC0 = 0) ∧
  (∀ (s : State) (a : Addr) (d mask : Byte), s.Inv → s.writes a d →
    (a.toNat = 0x004 ∧ mask = 0x7F) ∨ (a.toNat = 0x006 ∧ mask = 0x7F) ∨
      (a.toNat = 0x007 ∧ mask = 0x07) →
    step s = step { s with inputs := { s.now with hWdata := d &&& mask } :: s.inputs.tail }) ∧
  ∀ (s : State) (a : Addr) (d : Byte), s.writes a d →
    a.toNat = 0x000 ∨ a.toNat = 0x002 ∨ (0x00B ≤ a.toNat ∧ a.toNat ≤ 0x011) ∨
      (0x013 ≤ a.toNat ∧ a.toNat ≤ 0x0FF) ∨ 0x200 ≤ a.toNat ∨
      (0x100 ≤ a.toNat ∧ a.toNat < 0x200 ∧ s.build.maxLen ≤ a.toNat - 0x100) →
    step s = step s.noAccess

/-- R56: the address map as the host reads it (STATUS and LINES are `StatusAndLinesShowTheBlock`), and
R37, R38: the bit of each event flag. -/
def Obligations.RegistersStandAtTheirAddresses : Prop :=
  ∀ s : State,
    s.hostRead 0x000 = s.build.nodeId ∧ s.hostRead 0x001 = 0 ∧
    s.hostRead 0x003 = s.event0 ∧ s.hostRead 0x004 = s.event1 ∧
    s.hostRead 0x005 = s.irqEn0 ∧ s.hostRead 0x006 = s.irqEn1 ∧ s.hostRead 0x007 = s.config ∧
    s.hostRead 0x008 = s.txLen ∧ s.hostRead 0x009 = s.txDest ∧ s.hostRead 0x00A = s.txByte ∧
    s.hostRead 0x00B = s.rxByte ∧ s.hostRead 0x00C = s.rxLen ∧ s.hostRead 0x00D = s.rxDest ∧
    s.hostRead 0x00E = s.rxSrc ∧ s.hostRead 0x00F = s.cmdResult ∧
    s.hostRead 0x010 = s.diagLast ∧ s.hostRead 0x011 = s.diagPos ∧
    s.hostRead 0x012 = s.diagCount ∧ s.hostRead 0x013 = s.lastAttempts ∧
    s.hostRead 0x015 = BitVec.ofNat 8 s.build.maxLen ∧
    s.hostRead 0x016 = BitVec.ofNat 8 s.build.retryMax ∧
    (∀ k, k < 256 →
      s.hostRead (BitVec.ofNat 10 (0x100 + k)) =
        (if k < s.build.maxLen then s.txBuf.read k else 0) ∧
      s.hostRead (BitVec.ofNat 10 (0x200 + k)) =
        (if k < s.build.maxLen ∧ k < s.rxLen.toNat then s.rxStore.read k else 0)) ∧
    (s.flag .cmdDone = s.event0.getLsbD 0 ∧ s.flag .cmdRejected = s.event0.getLsbD 1 ∧
      s.flag .cmdIllegal = s.event0.getLsbD 2 ∧ s.flag .wrIgnored = s.event0.getLsbD 3 ∧
      s.flag .sendOk = s.event0.getLsbD 4 ∧ s.flag .sendFailed = s.event0.getLsbD 5 ∧
      s.flag .txByteFail = s.event0.getLsbD 6 ∧ s.flag .rxTimeout = s.event0.getLsbD 7) ∧
    s.flag .msgDelivered = s.event1.getLsbD 0 ∧ s.flag .msgRelayed = s.event1.getLsbD 1 ∧
    s.flag .msgDropped = s.event1.getLsbD 2 ∧ s.flag .oversize = s.event1.getLsbD 3 ∧
    s.flag .staleEcho = s.event1.getLsbD 4 ∧ s.flag .prematureAck = s.event1.getLsbD 5 ∧
    s.flag .startSeen = s.event1.getLsbD 6

/-- R32, R51, R148: what STATUS and LINES show of the current cycle. -/
def Obligations.StatusAndLinesShowTheBlock : Prop :=
  ∀ s : State,
    (let b := s.hostRead 0x002
     (b.getLsbD 0 = true ↔ s.point ≠ .idle ∨ s.pendValid = true) ∧ b.getLsbD 1 = s.pendValid ∧
      b.getLsbD 2 = s.rxAct ∧ b.getLsbD 3 = s.txAct ∧ b.getLsbD 4 = s.cmdAct ∧
      (b.getLsbD 5 = true ↔ s.event0 &&& s.irqEn0 ≠ 0 ∨ s.event1 &&& s.irqEn1 ≠ 0) ∧
      b.getLsbD 6 = false ∧ b.getLsbD 7 = false) ∧
    (let b := s.hostRead 0x014
     b.getLsbD 0 = s.clkOut ∧ b.getLsbD 1 = s.datOut ∧ b.getLsbD 2 = s.ackOut ∧
      b.getLsbD 3 = s.ci ∧ b.getLsbD 4 = s.di ∧ b.getLsbD 5 = s.ai ∧
      b.getLsbD 6 = false ∧ b.getLsbD 7 = false)

/-- R35: event flags are sticky, a written 1 clears, a set wins, and nothing else depends on the
flags or on a write to them. `t` is the next state with the flags taken as 0 and without such a write:
its flags are those the cycle sets. -/
def Obligations.EventFlagsAreSticky : Prop :=
  (∀ s t : State, s.now.rst = false → step { s.noWriteTo 0x003 with event0 := 0 } = .next t →
    step s = .next { t with event0 :=
      (if s.now.hSel = true ∧ s.now.hWe = true ∧ s.now.hAddr = 0x003 then
        s.event0 &&& ~~~s.now.hWdata else s.event0) ||| t.event0 }) ∧
  ∀ s t : State, s.now.rst = false → step { s.noWriteTo 0x004 with event1 := 0 } = .next t →
    step s = .next { t with event1 :=
      (if s.now.hSel = true ∧ s.now.hWe = true ∧ s.now.hAddr = 0x004 then
        s.event1 &&& ~~~s.now.hWdata else s.event1) ||| t.event1 }

/-- R49, R61, R150: in a cycle DIAG_COUNT is cleared by any host write to it, then rises by at most
one, and stays at 255; nothing else depends on the count or on a write to it. `t` is the next state
with the count taken as 0 and without such a write. That it is failure points that raise it is
`EachFailureIsRecordedWhereItOccurs`. -/
def Obligations.DiagCountClearsThenCounts : Prop :=
  ∀ s t : State, s.now.rst = false → step { s.noWriteTo 0x012 with diagCount := 0 } = .next t →
    (t.diagCount = 0 ∨ t.diagCount = 1) ∧
    step s = .next { t with diagCount :=
      if s.now.hSel = true ∧ s.now.hWe = true ∧ s.now.hAddr = 0x012 then t.diagCount
      else if t.diagCount = 0 then s.diagCount
      else if s.diagCount = 0xFF then 0xFF else s.diagCount + 1 }

/-- R147: the masks change only `irq`, never the flags or anything else. -/
def Obligations.MasksChangeOnlyTheInterruptRequest : Prop :=
  ∀ (s t : State) (m0 m1 : Byte), s.now.rst = false → (s.now.hSel && s.now.hWe) = false →
    step s = .next t →
    step { s with irqEn0 := m0, irqEn1 := m1 } = .next { t with irqEn0 := m0, irqEn1 := m1 } ∧
    ({ t with irqEn0 := m0, irqEn1 := m1 } : State).irq =
      ((t.event0 &&& m0) != 0 || (t.event1 &&& m1) != 0)

/-! ## The commands without and with line activity -/

/-- R98, R97: NOP completes in its dispatch cycle. The equation is its frame too. -/
def Obligations.NopCompletesAtOnce : Prop :=
  ∀ s : State, s.point = .idle →
    exec .nop s = .next { s.edge with
      pendValid := false, cmdAct := false, cmdResult := 0x00, event0 := s.edge.event0 ||| 0x01,
      point := .idle, cnt := 0 }

/-- R102, R105: LINES_IDLE completes in its dispatch cycle. The equation is its frame too. -/
def Obligations.LinesIdleCompletesAtOnce : Prop :=
  ∀ s : State, s.point = .idle →
    exec .linesIdle s = .next { s.edge with
      clkOut := true, datOut := true, ackOut := true,
      pendValid := false, cmdAct := false, cmdResult := 0x00, event0 := s.edge.event0 ||| 0x01,
      point := .idle, cnt := 0 }

/-- R79, R100, R103: PHY_START produces a start condition and completes after `2*T_DELAY` cycles. -/
def Obligations.PhyStartMakesAStartCondition : Prop :=
  ∀ s : State, s.starts .phyStart → 1 ≤ s.build.tDelay → s.noReset (1 + 2 * s.build.tDelay) →
    ∃ t, exec .phyStart s = .next t ∧
      (∀ k, k < 2 * s.build.tDelay → ∃ u, run k t = .next u ∧
        u.point.instr = some .phyStart ∧ u.clkOut = true ∧
        u.datOut = decide (k < s.build.tDelay) ∧ u.ackOut = s.ackOut) ∧
      ∃ u, run (2 * s.build.tDelay) t = .next u ∧ u.point = .idle ∧
        u.clkOut = true ∧ u.datOut = false ∧ u.ackOut = s.ackOut ∧
        u.cmdAct = false ∧ u.cmdResult = 0x00 ∧ u.flag .cmdDone = true ∧ u.diagLast = s.diagLast

/-- R80, R101, R104: PHY_STOP produces a stop condition and completes after `2*T_DELAY` cycles. -/
def Obligations.PhyStopMakesAStopCondition : Prop :=
  ∀ s : State, s.starts .phyStop → 1 ≤ s.build.tDelay → s.noReset (1 + 2 * s.build.tDelay) →
    ∃ t, exec .phyStop s = .next t ∧
      (∀ k, k < 2 * s.build.tDelay → ∃ u, run k t = .next u ∧
        u.point.instr = some .phyStop ∧ u.clkOut = true ∧
        u.datOut = (if k < s.build.tDelay then s.datOut else true) ∧ u.ackOut = s.ackOut) ∧
      ∃ u, run (2 * s.build.tDelay) t = .next u ∧ u.point = .idle ∧
        u.clkOut = true ∧ u.datOut = true ∧ u.ackOut = s.ackOut ∧
        u.cmdAct = false ∧ u.cmdResult = 0x00 ∧ u.flag .cmdDone = true ∧ u.diagLast = s.diagLast

/-- R81: the waveform of one bit cell of any `SendByte`, from the cycle `b` in which it begins. -/
def Obligations.BitCellWaveform : Prop :=
  ∀ (s : State) (v : Byte) (j : Fin 8),
    s.point.sending? = some ⟨v, .clockLow j⟩ → s.cnt = 0 → s.clkOut = false →
    1 ≤ s.build.tUnit → s.noReset (1 + 2 * s.build.tUnit) →
    (∀ k, k < 1 + 2 * s.build.tUnit → ∃ u, run k s = .next u ∧
      u.clkOut = decide (s.build.tUnit < k) ∧
      u.datOut = if k = 0 then s.datOut else v.getLsbD (7 - j.val)) ∧
    (j.val < 7 → ∃ u, run (1 + 2 * s.build.tUnit) s = .next u ∧
      u.point.sending? = some ⟨v, .clockLow (j + 1)⟩ ∧ u.cnt = 0 ∧ u.clkOut = false)

/-- R108, R111, R121: SEND_BYTE acknowledged in the `k`-th cycle of its wait. No cycle of it records a
failure point. -/
def Obligations.SendByteAcknowledged : Prop :=
  ∀ (s : State) (k : Nat), s.starts .sendByte → s.syncsOk → 1 ≤ s.build.tUnit →
    1 ≤ k → k ≤ s.build.ackTimeout →
    let c := s.build.cells
    s.noReset (1 + c + k + s.build.tUnit) →
    s.aiAt c = true → (∀ i, 1 ≤ i → i < k → s.aiAt (c + i) = true) → s.aiAt (c + k) = false →
    ∃ t, exec .sendByte s = .next t ∧ noFailurePoint s t ∧
      (∀ n, n < c + k + s.build.tUnit → ∃ u v, run n t = .next u ∧ step u = .next v ∧
        u.point.instr = some .sendByte ∧ u.ackOut = s.ackOut ∧ noFailurePoint u v) ∧
      ∃ u, run (c + k + s.build.tUnit) t = .next u ∧ u.point = .idle ∧
        u.clkOut = true ∧ u.datOut = s.txByte.getLsbD 0 ∧ u.ackOut = s.ackOut ∧
        u.cmdAct = false ∧ u.cmdResult = 0x00 ∧ u.flag .cmdDone = true ∧ u.diagLast = s.diagLast ∧
        u.diagPos = s.diagPos

/-- R108, R111, R112, R121, R141: SEND_BYTE with a premature acknowledgement. Its last cycle records
its only failure point. -/
def Obligations.SendByteMeetsPrematureAck : Prop :=
  ∀ s : State, s.starts .sendByte → s.syncsOk → 1 ≤ s.build.tUnit →
    let c := s.build.cells
    s.noReset (1 + c) → s.aiAt c = false →
    ∃ t, exec .sendByte s = .next t ∧ noFailurePoint s t ∧
      (∀ n, n < c → ∃ u v, run n t = .next u ∧ step u = .next v ∧
        u.point.instr = some .sendByte ∧ u.ackOut = s.ackOut ∧
        if n + 1 = c then failurePoint u v 0x30 0xFF else noFailurePoint u v) ∧
      ∃ u, run c t = .next u ∧ u.point = .idle ∧
        u.clkOut = true ∧ u.datOut = s.txByte.getLsbD 0 ∧ u.ackOut = s.ackOut ∧
        u.cmdAct = false ∧ u.cmdResult = 0x01 ∧ u.flag .cmdDone = true ∧
        u.diagLast = 0x30 ∧ u.diagPos = 0xFF ∧ u.flag .txByteFail = true ∧
        u.flag .prematureAck = true

/-- R108, R111, R113, R121, R141: SEND_BYTE without an acknowledgement. Its last cycle records its
only failure point. -/
def Obligations.SendByteTimesOut : Prop :=
  ∀ s : State, s.starts .sendByte → s.syncsOk → 1 ≤ s.build.tUnit → 1 ≤ s.build.ackTimeout →
    let c := s.build.cells
    s.noReset (1 + c + s.build.ackTimeout) →
    (∀ i, i ≤ s.build.ackTimeout → s.aiAt (c + i) = true) →
    ∃ t, exec .sendByte s = .next t ∧ noFailurePoint s t ∧
      (∀ n, n < c + s.build.ackTimeout → ∃ u v, run n t = .next u ∧ step u = .next v ∧
        u.point.instr = some .sendByte ∧ u.ackOut = s.ackOut ∧
        if n + 1 = c + s.build.ackTimeout then failurePoint u v 0x31 0xFF
        else noFailurePoint u v) ∧
      ∃ u, run (c + s.build.ackTimeout) t = .next u ∧ u.point = .idle ∧
        u.clkOut = false ∧ u.datOut = s.txByte.getLsbD 0 ∧ u.ackOut = s.ackOut ∧
        u.cmdAct = false ∧ u.cmdResult = 0x01 ∧ u.flag .cmdDone = true ∧
        u.diagLast = 0x31 ∧ u.diagPos = 0xFF ∧ u.flag .txByteFail = true

/-- R114, R116, R117, R122, R141: RECV_BYTE does what its pseudocode, read off the levels that the
synchronisers will show, says, in the cycle it says. Its last cycle records a failure point on a
timeout; no other cycle records one. -/
def Obligations.RecvByteFollowsItsPseudocode : Prop :=
  ∀ s : State, s.starts .recvByte → s.syncsOk → 1 ≤ s.build.edgeTimeout →
    let r := recvByteFrom s.build.edgeTimeout s.ciAt s.diAt 1
    s.noReset (1 + r.last) →
    ∃ t, exec .recvByte s = .next t ∧ noFailurePoint s t ∧
      (∀ n, n < r.last → ∃ u v, run n t = .next u ∧ step u = .next v ∧
        u.point.instr = some .recvByte ∧ u.clkOut = s.clkOut ∧ u.datOut = s.datOut ∧
        if n + 1 = r.last ∧ r.code ≠ 0x00 then failurePoint u v r.code 0xFF
        else noFailurePoint u v) ∧
      ∃ u, run r.last t = .next u ∧ u.point = .idle ∧ u.rxByte = r.acc ∧
        u.cmdAct = false ∧ u.cmdResult = (if r.code = 0x00 then 0x00 else 0x01) ∧
        u.flag .cmdDone = true ∧ u.clkOut = s.clkOut ∧ u.datOut = s.datOut ∧
        u.ackOut = decide (r.code ≠ 0x21 ∧ r.code ≠ 0x22) ∧
        (r.code = 0x00 → u.diagLast = s.diagLast ∧ u.diagPos = s.diagPos) ∧
        (r.code ≠ 0x00 → u.diagLast = r.code ∧ u.diagPos = 0xFF ∧ u.flag .rxTimeout = true)

/-- R62, R115: a RECV_BYTE that gets past its eighth bit has read, most significant bit first, the
data levels of eight cycles with the clock high, one after each low phase of the clock. -/
def Obligations.RecvByteReadsMsbFirst : Prop :=
  ∀ s : State, s.starts .recvByte → s.syncsOk → 1 ≤ s.build.edgeTimeout →
    let r := recvByteFrom s.build.edgeTimeout s.ciAt s.diAt 1
    s.noReset (1 + r.last) → r.code = 0x00 ∨ 0x20 ≤ r.code.toNat →
    ∃ t u, exec .recvByte s = .next t ∧ run r.last t = .next u ∧ u.point = .idle ∧
      ∃ low high : Nat → Nat,
        (∀ j, j < 8 → low j < high j ∧ s.ciAt (low j) = false ∧ s.ciAt (high j) = true ∧
          u.rxByte.getLsbD (7 - j) = s.diAt (high j)) ∧
        (∀ j, j < 7 → high j < low (j + 1)) ∧ 1 ≤ low 0 ∧ high 7 ≤ r.last

/-! ## Messages -/

/-- R123, R124, R127, R128: SEND_MSG with every byte acknowledged in the `k`-th cycle of its wait
sends the TX message as it stood at its dispatch and succeeds in its first attempt. No cycle of it
records a failure point. -/
def Obligations.SendMsgAcknowledged : Prop :=
  ∀ (s : State) (k : Nat), s.starts .sendMsg → s.syncsOk → 1 ≤ s.build.tUnit →
    1 ≤ s.build.tDelay → 1 ≤ k → k ≤ s.build.ackTimeout →
    let c := s.build.cells
    let byteTime := c + k + s.build.tUnit
    let bytes := 3 + s.txLen.toNat
    let n := 4 * s.build.tDelay + bytes * byteTime
    s.noReset (1 + n) →
    (∀ p, p < bytes → s.aiAt (2 * s.build.tDelay + p * byteTime + c) = true ∧
      (∀ i, 1 ≤ i → i < k → s.aiAt (2 * s.build.tDelay + p * byteTime + c + i) = true) ∧
      s.aiAt (2 * s.build.tDelay + p * byteTime + c + k) = false) →
    ∃ t, exec .sendMsg s = .next t ∧ t.txAct = true ∧ t.cmdAct = true ∧ noFailurePoint s t ∧
      (∀ m, m < n → ∃ u v, run m t = .next u ∧ step u = .next v ∧
        u.point.instr = some .sendMsg ∧ noFailurePoint u v) ∧
      (∀ p i, p < bytes → i < byteTime → ∃ u q,
        run (2 * s.build.tDelay + p * byteTime + i) t = .next u ∧
        u.point.sending? = some ⟨wireByte s.txLen s.txDest s.build.nodeId
          (fun j => s.readReg (.txBuf j)) p, q⟩) ∧
      ∃ u, run n t = .next u ∧ u.point = .idle ∧ u.clkOut = true ∧ u.datOut = true ∧
        u.ackOut = s.ackOut ∧ u.txAct = false ∧ u.cmdAct = false ∧ u.cmdResult = 0x00 ∧
        u.lastAttempts = 1 ∧ u.flag .sendOk = true ∧ u.flag .cmdDone = true ∧
        u.diagLast = s.diagLast ∧ u.diagPos = s.diagPos

/-- R125, R126, R128: SEND_MSG with no acknowledgement is sent exactly `RETRY_MAX` times and then
abandoned. That DIAG_POS is 0xFE at frame position 255 is the model's reading of R48 against the
text of R141 (DEDUCED, notes/assumptions/5.md). -/
def Obligations.SendMsgAbandoned : Prop :=
  ∀ s : State, s.starts .sendMsg → s.syncsOk → s.build.wf = true →
    let bytes := 3 + s.txLen.toNat
    let n := s.build.retryMax *
      (4 * s.build.tDelay + bytes * (s.build.cells + s.build.ackTimeout))
    s.noReset (1 + n) → (∀ i, i ≤ n → s.aiAt i = true) →
    ∃ t, exec .sendMsg s = .next t ∧ t.txAct = true ∧ t.cmdAct = true ∧
      (∀ m, m < n → ∃ u, run m t = .next u ∧ u.point.instr = some .sendMsg) ∧
      ∃ u, run n t = .next u ∧ u.point = .idle ∧ u.clkOut = true ∧ u.datOut = true ∧
        u.ackOut = s.ackOut ∧ u.txAct = false ∧ u.cmdAct = false ∧ u.cmdResult = 0x01 ∧
        u.lastAttempts = BitVec.ofNat 8 s.build.retryMax ∧ u.flag .sendFailed = true ∧
        u.flag .cmdDone = true ∧ u.diagLast = 0x31 ∧
        u.diagPos = BitVec.ofNat 8 (min (bytes - 1) 254) ∧
        ((∀ x ∈ (s.inputs.drop (1 + (n - 2 * s.build.tDelay))).take (2 * s.build.tDelay),
          (x.hSel && x.hWe) = false) → u.flag .txByteFail = true)

/-- R60, R123: whatever is acknowledged and however often it is retried, while a SEND_MSG runs each
byte it sends is the TX message's as it stood at the dispatch: TX_LEN, TX_DEST, NODE_ID, TX_BUF. -/
def Obligations.SendMsgSendsTheTxRegisters : Prop :=
  ∀ (s t u : State) (n : Nat) (m : MsgSendAct) (a : SendByteAct), s.starts .sendMsg →
    s.noReset (1 + n) → exec .sendMsg s = .next t →
    (∀ i, i ≤ n → ∃ w, run i t = .next w ∧ w.point.instr = some .sendMsg) →
    run n t = .next u → u.point = .sendMsg m → m.pt = .byte a →
    a.v = wireByte s.txLen s.txDest s.build.nodeId (fun k => s.readReg (.txBuf k)) m.p

/-- R123, R136: while a relay runs each byte it sends is FRAME's, as it stood before. -/
def Obligations.RelaySendsTheReceivedFrame : Prop :=
  ∀ (s u : State) (n : Nat) (m m' : MsgSendAct) (a : SendByteAct), s.Inv → s.noReset n →
    s.point = .receive (.relay m) →
    (∀ i, i ≤ n → ∃ w, run i s = .next w ∧ w.point.inSend = true) →
    run n s = .next u → u.point = .receive (.relay m') → m'.pt = .byte a →
    a.v = wireByte s.frameLen s.frameDest s.frameSrc (fun k => s.framePay.read k) m'.p

/-- R82, R100, R101, R108, R124, R127: how a SEND_MSG begins; and, in a SEND_MSG and in a relay alike,
every step of an attempt that meets no failure, with its duration and its levels: the start condition,
the bit cells of each byte, its acknowledgement and 9th pulse, the next byte or after the last the stop
condition. Before the last cycle of a timed statement nothing but its counter changes. -/
def Obligations.AttemptGoesThroughTheFrame : Prop :=
  (∀ s : State, s.starts .sendMsg →
    s.leadsTo (.sendMsg ⟨.tx, 1, false, 0, .start .high⟩) true true) ∧
  ∀ (s : State) (f : FrameSource) (m : MsgSendAct), s.now.rst = false →
    s.point = msgSendPoint f m →
    let at' (q : MsgSendPt) : Point := msgSendPoint f ⟨m.src, m.attempt, m.fail, m.p, q⟩
    (s.cnt + 1 < m.limit s.build → ¬(∃ v, m.pt = .byte ⟨v, .ackWait⟩ ∧ s.ai = false) →
      step s = .next { s.edge with cnt := s.cnt + 1 }) ∧
    (m.pt = .start .high → s.build.tDelay ≤ s.cnt + 1 →
      s.leadsTo (at' (.start .low)) s.clkOut false) ∧
    (m.pt = .start .low → s.build.tDelay ≤ s.cnt + 1 →
      s.leadsTo (msgSendPoint f ⟨m.src, m.attempt, false, 0,
        .byte ⟨s.frameByte m.src 0, .clockLow 0⟩⟩) false s.datOut) ∧
    (∀ v j, m.pt = .byte ⟨v, .clockLow j⟩ →
      s.leadsTo (at' (.byte ⟨v, .dataLow j⟩)) s.clkOut (v.getLsbD (7 - j.val))) ∧
    (∀ v j, m.pt = .byte ⟨v, .dataLow j⟩ → s.build.tUnit ≤ s.cnt + 1 →
      s.leadsTo (at' (.byte ⟨v, .clockHigh j⟩)) true s.datOut) ∧
    (∀ v j, m.pt = .byte ⟨v, .clockHigh j⟩ → j.val < 7 → s.build.tUnit ≤ s.cnt + 1 →
      s.leadsTo (at' (.byte ⟨v, .clockLow (j + 1)⟩)) false s.datOut) ∧
    (∀ v, m.pt = .byte ⟨v, .clockHigh 7⟩ → s.build.tUnit ≤ s.cnt + 1 → s.ai = true →
      s.leadsTo (at' (.byte ⟨v, .ackWait⟩)) false s.datOut) ∧
    (∀ v, m.pt = .byte ⟨v, .ackWait⟩ → s.ai = false →
      s.leadsTo (at' (.byte ⟨v, .ackPulse⟩)) true s.datOut) ∧
    (∀ v, m.pt = .byte ⟨v, .ackPulse⟩ → s.build.tUnit ≤ s.cnt + 1 →
      (m.p + 1 < s.frameCount m.src → s.leadsTo (msgSendPoint f ⟨m.src, m.attempt, m.fail, m.p + 1,
        .byte ⟨s.frameByte m.src (m.p + 1), .clockLow 0⟩⟩) false s.datOut) ∧
      (s.frameCount m.src ≤ m.p + 1 → s.leadsTo (at' (.stop .clock)) true s.datOut)) ∧
    (m.pt = .stop .clock → s.build.tDelay ≤ s.cnt + 1 →
      s.leadsTo (at' (.stop .data)) s.clkOut true)

/-- R112, R124, R136, R141: in a SEND_MSG and in a relay alike, a failed byte is recorded and does not
end the attempt. That DIAG_POS is 0xFE at frame position 255
is the model's reading of R48 against the text of R141 (DEDUCED, notes/assumptions/5.md). -/
def Obligations.FailedByteDoesNotEndTheAttempt : Prop :=
  ∀ (s : State) (f : FrameSource) (m : MsgSendAct) (v : Byte) (q : SendBytePt),
    s.now.rst = false → s.point = msgSendPoint f m → m.pt = .byte ⟨v, q⟩ →
    (q = .clockHigh 7 ∧ s.build.tUnit ≤ s.cnt + 1 ∧ s.ai = false ∨
      q = .ackWait ∧ s.build.ackTimeout ≤ s.cnt + 1 ∧ s.ai = true) →
    ∃ t, step s = .next t ∧ t.cnt = 0 ∧
      failurePoint s t (if q = .ackWait then 0x31 else 0x30) (framePos m.p) ∧
      t.datOut = s.datOut ∧ t.ackOut = s.ackOut ∧
      (m.p + 1 < s.frameCount m.src → t.clkOut = false ∧
        t.point = msgSendPoint f ⟨m.src, m.attempt, true, m.p + 1,
          .byte ⟨s.frameByte m.src (m.p + 1), .clockLow 0⟩⟩) ∧
      (s.frameCount m.src ≤ m.p + 1 → t.clkOut = true ∧
        t.point = msgSendPoint f ⟨m.src, m.attempt, true, m.p, .stop .clock⟩)

/-- R141, R142, R84, R86, R150: in every operation, the cycle in which a `SendByte` or a `RecvByte`
meets a failure records it, with its step code and its frame position (0xFF for a stand-alone
command), and no other cycle without reset changes the diagnostic registers, but for the host's clear
of DIAG_COUNT. That frame position 255 records 0xFE is the model's reading of R48 (DEDUCED,
notes/assumptions/5.md). -/
def Obligations.EachFailureIsRecordedWhereItOccurs : Prop :=
  ∀ s t : State, s.now.rst = false → step s = .next t →
    match s.point.failure s with
    | none => noFailurePoint s t
    | some (code, pos) => failurePoint s t code pos

/-- R129 to R132: the byte of a reception, complete or timed out, is used as it stands, and the
reception goes on with the next byte, the validation or the stop condition. -/
def Obligations.ReceivedByteIsUsedAsItStands : Prop :=
  ∀ (s : State) (q : MsgReceivePt) (a : RecvByteAct) (p : Nat), s.now.rst = false →
    s.point = .receive q → q.byte? = some (a, p) →
    a.pt.failure s ≠ none ∨ (a.pt = .ackFall ∧ s.ci = false) →
    ∃ t, step s = .next t ∧ t.cnt = 0 ∧ (t.point.receiving? ≠ none → t.ackOut = true) ∧
      (q = .length a → t.frameLen = a.acc ∧ t.point = .receive (.recipient ⟨0, .fall 0⟩)) ∧
      (q = .recipient a → t.frameDest = a.acc ∧ t.point = .receive (.sender ⟨0, .fall 0⟩)) ∧
      (q = .sender a → t.frameSrc = a.acc ∧ t.point =
        if a.acc = s.build.nodeId ∧ s.frameDest ≠ s.build.nodeId then .idle
        else if s.build.maxLen < s.frameLen.toNat then
          if s.drainOversize = true then .receive (.drain 0 ⟨0, .fall 0⟩)
          else .receive (.oversizeStop .clock)
        else if s.frameLen = 0 then .receive (.stop .clock)
        else .receive (.payload 0 ⟨0, .fall 0⟩)) ∧
      (∀ k, q = .drain k a → t.framePay = s.framePay ∧ t.point =
        if k + 1 < s.frameLen.toNat then .receive (.drain (k + 1) ⟨0, .fall 0⟩)
        else .receive (.oversizeStop .clock)) ∧
      (∀ k, q = .payload k a → (s.framePay.wf = true → t.framePay.read k = a.acc) ∧ t.point =
        if k + 1 < s.frameLen.toNat then .receive (.payload (k + 1) ⟨0, .fall 0⟩)
        else .receive (.stop .clock))

/-- R124, R125, R136: what follows the stop condition of an attempt: the end of a SEND_MSG (the end of
a relay is `RelayEndsWithMsgRelayed`), or in both the next attempt. -/
def Obligations.AttemptEndsOrIsRetried : Prop :=
  ∀ (s : State) (f : FrameSource) (m : MsgSendAct), s.now.rst = false →
    s.point = msgSendPoint f m → m.pt = .stop .data → s.build.tDelay ≤ s.cnt + 1 →
    ∃ t, step s = .next t ∧ noFailurePoint s t ∧
      (f = .tx → m.fail = false → t.point = .idle ∧ t.flag .sendOk = true ∧ t.flag .cmdDone = true ∧
        t.lastAttempts = BitVec.ofNat 8 m.attempt ∧ t.cmdResult = 0x00 ∧ t.txAct = false) ∧
      (f = .tx → m.fail = true → m.attempt = s.build.retryMax →
        t.point = .idle ∧ t.flag .sendFailed = true ∧ t.flag .cmdDone = true ∧
        t.lastAttempts = BitVec.ofNat 8 m.attempt ∧ t.cmdResult = 0x01 ∧ t.txAct = false) ∧
      (m.fail = true → m.attempt ≠ s.build.retryMax →
        t.point = msgSendPoint f ⟨m.src, m.attempt + 1, false, 0, .start .high⟩ ∧ t.cnt = 0 ∧
        t.clkOut = true ∧ t.datOut = true ∧ t.lastAttempts = s.lastAttempts)

/-- R129, R130: a stale echo is aborted after its header. -/
def Obligations.StaleEchoIsAborted : Prop :=
  ∀ (s : State) (l d x : Byte) (c : Nat), s.starts .msgReceive → s.syncsOk →
    1 ≤ s.build.edgeTimeout → s.received 3 = ([l, d, x], c) →
    x = s.build.nodeId → d ≠ s.build.nodeId → s.noReset c →
    ∃ t, exec .msgReceive s = .next t ∧ t.rxAct = true ∧ t.flag .startSeen = true ∧
      (∀ n, n < c - 1 → ∃ u, run n t = .next u ∧ u.point.inReceive = true) ∧
      ∃ u, run (c - 1) t = .next u ∧ u.point = .idle ∧ u.rxAct = false ∧
        u.flag .staleEcho = true ∧ u.clkOut = true ∧ u.datOut = true ∧ u.ackOut = true ∧
        u.rxLen = s.rxLen ∧ u.rxDest = s.rxDest ∧ u.rxSrc = s.rxSrc ∧ u.rxStore = s.rxStore ∧
        u.framePay = s.framePay

/-- R129, R132: an oversize message is not delivered; its payload is read only with
CONFIG.DRAIN_OVERSIZE = 1, and then discarded. -/
def Obligations.OversizeIsDiscarded : Prop :=
  ∀ (s : State) (l d x : Byte) (c c' : Nat), s.starts .msgReceive → s.syncsOk →
    s.build.wf = true → s.received 3 = ([l, d, x], c) →
    ¬(x = s.build.nodeId ∧ d ≠ s.build.nodeId) → s.build.maxLen < l.toNat →
    c' = (if s.drainOversize = true then (s.received (3 + l.toNat)).2 else c) →
    let n := c' - 1 + 2 * s.build.tDelay + s.build.tSettle
    s.noReset (1 + n) → (∀ i ∈ s.inputs.take (1 + n), (i.hSel && i.hWe) = false) →
    ∃ t, exec .msgReceive s = .next t ∧ t.rxAct = true ∧ t.flag .startSeen = true ∧
      (∀ m, m < n → ∃ u, run m t = .next u ∧ u.point.inReceive = true) ∧
      ∃ u, run n t = .next u ∧ u.point = .idle ∧ u.rxAct = false ∧ u.flag .oversize = true ∧
        u.clkOut = true ∧ u.datOut = true ∧ u.ackOut = true ∧
        u.rxLen = s.rxLen ∧ u.rxDest = s.rxDest ∧ u.rxSrc = s.rxSrc ∧ u.rxStore = s.rxStore ∧
        u.framePay = s.framePay

/-- R129, R134, R135: a message for this node is delivered as received, byte by byte. -/
def Obligations.MessageForThisNodeIsDelivered : Prop :=
  ∀ (s : State) (l x : Byte) (pay : List Byte) (c : Nat), s.starts .msgReceive → s.Inv →
    s.received (3 + l.toNat) = (l :: s.build.nodeId :: x :: pay, c) → l.toNat ≤ s.build.maxLen →
    let n := c - 1 + 2 * s.build.tDelay + s.build.tSettle
    s.noReset (1 + n) →
    ∃ t, exec .msgReceive s = .next t ∧ t.rxAct = true ∧ t.flag .startSeen = true ∧
      (∀ m, m < n → ∃ u, run m t = .next u ∧ u.point.inReceive = true ∧
        u.rxLen = s.rxLen ∧ u.rxDest = s.rxDest ∧ u.rxSrc = s.rxSrc ∧ u.rxStore = s.rxStore) ∧
      ∃ u, run n t = .next u ∧ u.point = .idle ∧ u.rxAct = false ∧ u.flag .msgDelivered = true ∧
        u.clkOut = true ∧ u.datOut = true ∧ u.ackOut = true ∧
        u.rxLen = l ∧ u.rxDest = s.build.nodeId ∧ u.rxSrc = x ∧
        ∀ k, u.readReg (.rxBuf k) = if k < l.toNat then pay.getD k 0 else 0

/-- R129, R138: an empty message for another node is dropped. -/
def Obligations.EmptyMessageIsDropped : Prop :=
  ∀ (s : State) (d x : Byte) (c : Nat), s.starts .msgReceive → s.syncsOk → s.build.wf = true →
    s.received 3 = ([0, d, x], c) → d ≠ s.build.nodeId → x ≠ s.build.nodeId →
    let n := c - 1 + 2 * s.build.tDelay + s.build.tSettle
    s.noReset (1 + n) →
    ∃ t, exec .msgReceive s = .next t ∧ t.rxAct = true ∧ t.flag .startSeen = true ∧
      (∀ m, m < n → ∃ u, run m t = .next u ∧ u.point.inReceive = true ∧ u.txAct = s.txAct) ∧
      ∃ u, run n t = .next u ∧ u.point = .idle ∧ u.rxAct = false ∧ u.flag .msgDropped = true ∧
        u.clkOut = true ∧ u.datOut = true ∧ u.ackOut = true ∧
        u.rxLen = s.rxLen ∧ u.rxDest = s.rxDest ∧ u.rxSrc = s.rxSrc ∧ u.rxStore = s.rxStore

/-- R129, R136, R137: a message for another node is relayed as received, after the settle delay and,
with CONFIG.RESYNC = 1, the first bracket. -/
def Obligations.MessageForAnotherNodeIsRelayed : Prop :=
  ∀ (s : State) (l d x : Byte) (pay : List Byte) (c : Nat), s.starts .msgReceive → s.Inv →
    s.received (3 + l.toNat) = (l :: d :: x :: pay, c) → d ≠ s.build.nodeId →
    x ≠ s.build.nodeId → 0 < l.toNat → l.toNat ≤ s.build.maxLen →
    let n := c - 1 + 2 * s.build.tDelay + s.build.tSettle +
      (if s.resync = true then s.build.tSettle else 0)
    s.noReset (1 + n) → (∀ i ∈ s.inputs.take (1 + n), (i.hSel && i.hWe) = false) →
    ∃ t, exec .msgReceive s = .next t ∧ t.rxAct = true ∧ t.flag .startSeen = true ∧
      ∃ u, run n t = .next u ∧ u.rxAct = true ∧ u.txAct = true ∧ u.cnt = 0 ∧
        u.clkOut = true ∧ u.datOut = true ∧
        u.point = .receive (.relay ⟨.frame, 1, false, 0, .start .high⟩) ∧
        u.frameCount .frame = 3 + l.toNat ∧
        ∀ p, p < 3 + l.toNat → u.frameByte .frame p = (l :: d :: x :: pay).getD p 0

/-- R136, R137, R139: the end of a relay, whatever its outcome. -/
def Obligations.RelayEndsWithMsgRelayed : Prop :=
  ∀ (s : State) (m : MsgSendAct), s.point = .receive (.relay m) → m.pt = .stop .data →
    s.build.tDelay ≤ s.cnt + 1 → m.fail = false ∨ m.attempt = s.build.retryMax →
    1 ≤ s.build.tSettle → s.noReset (1 + s.build.tSettle) →
    ∃ t, step s = .next t ∧ t.txAct = false ∧ t.lastAttempts = BitVec.ofNat 8 m.attempt ∧
      t.flag (if m.fail = false then .sendOk else .sendFailed) = true ∧
      t.cmdResult = s.cmdResult ∧
      t.clkOut = true ∧ t.datOut = true ∧ t.ackOut = true ∧
      (s.resync = false → t.point = .idle ∧ t.rxAct = false ∧ t.flag .msgRelayed = true) ∧
      (s.resync = true → t.point = .receive .relayAfter ∧
        ∃ u, run s.build.tSettle t = .next u ∧ u.point = .idle ∧ u.rxAct = false ∧
          u.flag .msgRelayed = true ∧ u.clkOut = true ∧ u.datOut = true ∧ u.ackOut = true)

/-! ## Frames: what the cycle of an operation leaves as the clock edge leaves it -/

/-- R97, R105: the cycle of NOP, PHY_START, PHY_STOP or LINES_IDLE writes, beside what the clock edge
does, at most these; of the events the block sets CMD_DONE at the completion, and no other; and it
writes CMD_RESULT at the completion only. -/
def Obligations.FrameOfPhysicalCommands : Prop :=
  ∀ (s t : State) (i : Instr), s.fetch = some (.instr i) → exec i s = .next t →
    (i = .nop → t = { s.edge with
      point := t.point, cnt := t.cnt, cmdAct := t.cmdAct, pendValid := t.pendValid,
      cmdResult := t.cmdResult, event0 := s.edge.event0 ||| 0x01 }) ∧
    (i = .phyStart ∨ i = .phyStop → t = { s.edge with
      clkOut := t.clkOut, datOut := t.datOut,
      point := t.point, cnt := t.cnt, cmdAct := t.cmdAct, pendValid := t.pendValid,
      cmdResult := t.cmdResult,
      event0 := if t.point = .idle then s.edge.event0 ||| 0x01 else s.edge.event0 }) ∧
    (i = .nop ∨ i = .phyStart ∨ i = .phyStop ∨ i = .linesIdle → commandRegisters s t) ∧
    (i = .linesIdle → t = { s.edge with
      clkOut := t.clkOut, datOut := t.datOut, ackOut := t.ackOut,
      point := t.point, cnt := t.cnt, cmdAct := t.cmdAct, pendValid := t.pendValid,
      cmdResult := t.cmdResult, event0 := s.edge.event0 ||| 0x01 })

/-- R110, R118, R151: the cycle of SEND_BYTE or SEND_MSG never writes ACK_OUT, the cycle of RECV_BYTE
never writes CLK_OUT or DAT_OUT; none writes FRAME, the TX or the RX message registers; and the block
sets exactly the events of the failure it meets and of its completion. R43, R46, R50, R97: CMD_RESULT,
RX_BYTE and LAST_ATTEMPTS are written at the completion only. -/
def Obligations.FrameOfByteAndMessageCommands : Prop :=
  ∀ (s t : State) (i : Instr), s.fetch = some (.instr i) → exec i s = .next t →
    (i = .sendByte → t = { s.edge with
      clkOut := t.clkOut, datOut := t.datOut,
      point := t.point, cnt := t.cnt, cmdAct := t.cmdAct, pendValid := t.pendValid,
      cmdResult := t.cmdResult, event0 := t.event0, event1 := t.event1,
      diagLast := t.diagLast, diagPos := t.diagPos, diagCount := t.diagCount }) ∧
    (i = .recvByte → t = { s.edge with
      ackOut := t.ackOut, rxByte := t.rxByte,
      point := t.point, cnt := t.cnt, cmdAct := t.cmdAct, pendValid := t.pendValid,
      cmdResult := t.cmdResult, event0 := t.event0,
      diagLast := t.diagLast, diagPos := t.diagPos, diagCount := t.diagCount }) ∧
    (i = .sendMsg → t = { s.edge with
      clkOut := t.clkOut, datOut := t.datOut, txAct := t.txAct, lastAttempts := t.lastAttempts,
      point := t.point, cnt := t.cnt, cmdAct := t.cmdAct, pendValid := t.pendValid,
      cmdResult := t.cmdResult, event0 := t.event0, event1 := t.event1,
      diagLast := t.diagLast, diagPos := t.diagPos, diagCount := t.diagCount }) ∧
    (i = .sendMsg → t.txAct =
      (if t.point = .idle then false else if s.point = .idle then true else s.txAct)) ∧
    (i = .sendByte ∨ i = .recvByte ∨ i = .sendMsg → commandRegisters s t ∧
      setsExactly s t (cycleEvents i s t) ∧
      ∀ k, t.readReg (.txBuf k) = s.edge.readReg (.txBuf k) ∧
        t.readReg (.rxBuf k) = s.edge.readReg (.rxBuf k))

/-- The cycle of a message reception writes no command, TX, mask or CONFIG register, and each part of
FRAME only in the byte that carries it (R129). The block sets exactly the events of the failure it
meets, of the start, of the header's validation and of the disposition (R151), never CMD_DONE (R136).
That OVERSIZE is among those of the header's validation, and not set at the end of the reception, is
the model's reading of R129 and R151 against vectors M8, M9 and M15 (DEDUCED,
notes/assumptions/14.md). LAST_ATTEMPTS is written only by the end of the relay's `MsgSend` (R50).
CLK_OUT and DAT_OUT stay while bytes are received (R118), ACK_OUT stays outside them, in the relay's
`MsgSend` too (R100, R101, R110), until a `LinesIdle`; and every path ends with one (R139). -/
def Obligations.FrameOfMessageReception : Prop :=
  ∀ s t : State, s.fetch = some (.instr .msgReceive) → exec .msgReceive s = .next t →
    t = { s.edge with
      clkOut := t.clkOut, datOut := t.datOut, ackOut := t.ackOut, point := t.point, cnt := t.cnt,
      rxAct := t.rxAct, txAct := t.txAct,
      frameLen := t.frameLen, frameDest := t.frameDest, frameSrc := t.frameSrc,
      framePay := t.framePay, rxLen := t.rxLen, rxDest := t.rxDest, rxSrc := t.rxSrc,
      rxStore := t.rxStore, event0 := t.event0, event1 := t.event1, diagLast := t.diagLast,
      diagPos := t.diagPos, diagCount := t.diagCount, lastAttempts := t.lastAttempts } ∧
    (∀ k, t.readReg (.txBuf k) = s.edge.readReg (.txBuf k)) ∧
    setsExactly s t (cycleEvents .msgReceive s t) ∧
    (s.point.inSend = false ∨ t.point.inSend = true → t.lastAttempts = s.lastAttempts) ∧
    t.txAct = (if t.point.inSend = s.point.inSend then s.txAct else t.point.inSend) ∧
    t.rxAct = (if t.point = .idle then false else if s.point = .idle then true else s.rxAct) ∧
    (t.point.receiving? ≠ none → t.clkOut = s.clkOut ∧ t.datOut = s.datOut) ∧
    (s.point ≠ .idle → s.point.receiving? = none → t.point ≠ .idle →
      t.point ≠ .receive .relayBefore → t.point ≠ .receive .relayAfter → t.ackOut = s.ackOut) ∧
    (t.point = .idle → t.clkOut = true ∧ t.datOut = true ∧ t.ackOut = true) ∧
    ((∀ a, s.point ≠ .receive (.length a)) → t.frameLen = s.frameLen) ∧
    ((∀ a, s.point ≠ .receive (.recipient a)) → t.frameDest = s.frameDest) ∧
    ((∀ a, s.point ≠ .receive (.sender a)) → t.frameSrc = s.frameSrc) ∧
    ((∀ k a, s.point ≠ .receive (.payload k a)) → t.framePay = s.framePay) ∧
    ∀ k a, s.point = .receive (.payload k a) →
      ∀ j, j ≠ k → t.framePay.read j = s.framePay.read j

/-- R44: the RX message registers change only at a delivery, and then all at one edge. -/
def Obligations.RxRegistersChangeOnlyAtADelivery : Prop :=
  ∀ s t : State, s.now.rst = false → s.rxStore.wf = true → step s = .next t →
    (t.rxLen = s.rxLen ∧ t.rxDest = s.rxDest ∧ t.rxSrc = s.rxSrc ∧ t.rxStore = s.rxStore) ∨
    (s.point = .receive .settle ∧ s.frameDest = s.build.nodeId ∧ t.flag .msgDelivered = true ∧
      t.rxLen = s.frameLen ∧ t.rxDest = s.frameDest ∧ t.rxSrc = s.frameSrc ∧
      ∀ k, k < s.build.maxLen → t.rxStore.read k = s.framePay.read k)

/-! ## Invariants and bounds -/

/-- Every step keeps the invariant. -/
def Obligations.StepKeepsTheInvariant : Prop :=
  ∀ s t : State, s.Inv → step s = .next t → t.Inv ∧ t.build = s.build

/-- The invariant holds after reset, for every admitted build and for `State.reset`, whose build is
the model's choice (DESIGN CHOICE, notes/assumptions/1.md). -/
def Obligations.ResetSatisfiesTheInvariant : Prop :=
  State.reset.Inv ∧ ∀ (b : Build) (xs : List Input), b.wf = true → (State.resetOf b xs).Inv

/-- R79 to R82: every step keeps the outputs as the waveforms show them at the control point. -/
def Obligations.StepKeepsTheWaveformLevels : Prop :=
  ∀ s t : State, s.linesOk → step s = .next t → t.linesOk

/-- R110: while a byte is sent, the data line changes only with the clock low before and after. -/
def Obligations.DataChangesOnlyWithTheClockLow : Prop :=
  ∀ (s t : State) (a : SendByteAct), s.linesOk → s.now.rst = false → s.point.sending? = some a →
    step s = .next t → t.datOut ≠ s.datOut →
    s.clkOut = false ∧ t.clkOut = false

/-- R116: every step keeps the shape of a partial byte. -/
def Obligations.StepKeepsThePartialByte : Prop :=
  ∀ s t : State, (∀ a, s.point.receiving? = some a → a.accOk) → step s = .next t →
    ∀ a, t.point.receiving? = some a → a.accOk

/-- R22: the synchronisers delay every input by `SYNC_STAGES` cycles. -/
def Obligations.SynchroniserDelay : Prop :=
  ∀ (n : Nat) (s t : State), s.syncsOk → s.noReset n → run n s = .next t →
    t.ci = s.ciAt n ∧ t.di = s.diAt n ∧ t.ai = s.aiAt n

/-- R144: no state of the invariant is stuck, and every operation ends: the block is back at
`IDLE_POLL` within the longest of the bounds of R145. -/
def Obligations.BlockAlwaysReturnsToIdle : Prop :=
  ∀ s : State, s.Inv →
    let n := max (s.build.msgReceiveMax 255) s.build.relayMax
    s.noReset n →
    (∃ t, step s = .next t) ∧ ∃ m u, m ≤ n ∧ run m s = .next u ∧ u.point = .idle

/-- R145: the bound of each operation, counted from the cycle after it starts. A reception ends within
the bound without relay, or a relay begins in it and the reception ends within the bound with one. -/
def Obligations.OperationsKeepTheirBounds : Prop :=
  ∀ (s : State) (i : Instr) (n : Nat), s.Inv → s.starts i →
    n = (match i with
      | .nop => 0
      | .linesIdle => 0
      | .phyStart => 2 * s.build.tDelay
      | .phyStop => 2 * s.build.tDelay
      | .sendByte => s.build.sendByteMax
      | .recvByte => s.build.recvByteMax
      | .sendMsg => s.build.msgSendMax (3 + s.txLen.toNat)
      | .msgReceive => max
          (s.build.msgReceiveMax (if s.drainOversize = true then 255 else s.build.maxLen))
          s.build.relayMax) →
    s.noReset (1 + n) → (∀ x ∈ s.inputs.take (1 + n), (x.hSel && x.hWe) = false) →
    ∃ t, exec i s = .next t ∧ (∃ m u, m ≤ n ∧ run m t = .next u ∧ u.point = .idle) ∧
      (i = .msgReceive →
        (∃ m u, m ≤ s.build.msgReceiveMax (if s.drainOversize = true then 255 else s.build.maxLen) ∧
          run m t = .next u ∧ u.point = .idle) ∨
        ((∃ m u, m ≤ s.build.msgReceiveMax s.build.maxLen ∧ run m t = .next u ∧
            u.point.relaying = true) ∧
          ∃ m u, m ≤ s.build.relayMax ∧ run m t = .next u ∧ u.point = .idle))

/-! ## Rings -/

/-- R163: nodes at rest see each other's idle lines, which form no start condition: a cycle in which
no host writes a command that is accepted leaves every node at rest, however the ring is wired and
whichever nodes are held in reset or released from it. -/
def Obligations.RingAtRestStaysAtRest : Prop :=
  ∀ r : Ring,
    (∀ s ∈ r.nodes, s.atRest ∧ ∀ d, s.writes 0x001 d →
      d.extractLsb' 4 4 ≠ 0#4 ∨ 7 ≤ (d.extractLsb' 0 4).toNat ∨
        (d.extractLsb' 0 4 = 1#4 ∧ s.build.maxLen < s.txLen.toNat)) →
    ∃ r', r.step = .next r' ∧ r'.up = r.up ∧ r'.nodes.length = r.nodes.length ∧
      ∀ s ∈ r'.nodes, s.atRest

/-- R177 at the byte level: two adjacent nodes in the synchronous composition that meet the timing
constraints, and whose SEND_BYTE and RECV_BYTE are dispatched in the same cycle, transfer a byte; the
receiver's final 0x22 (R119) is the only failure point of both. -/
def Obligations.AdjacentNodesTransferAByte : Prop :=
  ∀ (ba bb : Build) (v : Byte), ba.wf = true → bb.wf = true → bb.syncStages = ba.syncStages →
    2 * ba.syncStages + 2 ≤ ba.ackTimeout → 2 * ba.syncStages + 2 ≤ bb.edgeTimeout →
    ba.tUnit + 1 ≤ bb.edgeTimeout →
    let a : State := { State.resetOf ba [] with txByte := v, pendValid := true, pendOp := 4 }
    let b : State := { State.resetOf bb [] with config := 0x04, pendValid := true, pendOp := 5 }
    ∃ n a' b', Ring.run n (Ring.chain [a, b]) = .next (Ring.chain [a', b']) ∧
      a'.point = .idle ∧ a'.cmdResult = 0x00 ∧ a'.flag .cmdDone = true ∧ a'.diagLast = 0x00 ∧
      a'.diagCount = 0 ∧ b'.point = .idle ∧ b'.rxByte = v ∧ b'.diagLast = 0x22 ∧
      b'.diagCount = 1 ∧ b'.flag .cmdDone = true
end

