-- ==== Sys2Proof/Laws/HostScript.lean ====
section
/-! SUPPORT. What a host of a script sees and does to its node. -/

namespace Sys2Proof.Laws
open Sys2Proof.Machine

variable (s : State) (x : Input)

/-- The pins and the reset of a cycle are not the host's. -/
@[simp] theorem withAccess_rst : (s.withAccess x).now.rst = s.now.rst := rfl
@[simp] theorem withAccess_clkIn : (s.withAccess x).now.clkIn = s.now.clkIn := rfl
@[simp] theorem withAccess_datIn : (s.withAccess x).now.datIn = s.now.datIn := rfl
@[simp] theorem withAccess_ackIn : (s.withAccess x).now.ackIn = s.now.ackIn := rfl

/-- What a read returns: the register's value in the cycle (R58), 0x00 while `rst` = 1 (R59). -/
theorem readData_eq (a : Addr) : s.readData a = if s.now.rst = true then 0 else s.hostRead a := by
  show (if (!s.now.rst) = true then s.hostRead a else 0) = _
  cases s.now.rst <;> rfl

end Sys2Proof.Laws
end

