-- ==== Sys2Proof/Laws/Memory.lean ====
section
/-! SUPPORT. The laws of a byte buffer: a read after a write, the canonical form, the number of
entries, and the copy of a delivery. -/

namespace Sys2Proof.Laws
open Sys2Proof.Machine

/-- In canonical form the entries of a tail lie above its head. -/
theorem wf_tail {a : Nat} {x : Byte} {m : Memory} (h : Memory.wf ((a, x) :: m) = true) :
    Memory.wf m = true := by
  simp [Memory.wf] at h; exact h.2

theorem wf_head_ne {a : Nat} {x : Byte} {m : Memory} (h : Memory.wf ((a, x) :: m) = true) :
    x ≠ 0#8 := by
  simp [Memory.wf] at h; exact h.1.1

theorem wf_lt {a b : Nat} {x y : Byte} {m : Memory}
    (h : Memory.wf ((a, x) :: (b, y) :: m) = true) : a < b := by
  simp [Memory.wf] at h; exact h.1.2

/-- An entry below the first listed one reads 0. -/
theorem read_below {m : Memory} {a k : Nat} {x : Byte} (h : Memory.wf ((a, x) :: m) = true)
    (hk : k < a) : Memory.read ((a, x) :: m) k = 0#8 := by
  induction m generalizing a x with
  | nil => simp [Memory.read]; omega
  | cons c m ih =>
    obtain ⟨b, y⟩ := c
    have hab := wf_lt h
    have := ih (wf_tail h) (by omega)
    simp only [Memory.read] at this ⊢
    rw [if_neg (by omega)]; exact this

/-- The entry at the head's own index is not listed again. -/
theorem read_head_tail {m : Memory} {a : Nat} {x : Byte} (h : Memory.wf ((a, x) :: m) = true) :
    Memory.read m a = 0#8 := by
  cases m with
  | nil => rfl
  | cons c m => exact read_below (wf_tail h) (wf_lt h)

/-- A read of the entry just written gives the value written. -/
theorem read_write_same {m : Memory} (h : m.wf = true) (k : Nat) (v : Byte) :
    (m.write k v).read k = v := by
  induction m with
  | nil => by_cases hv : v = 0#8 <;> simp [Memory.write, Memory.read, hv]
  | cons c m ih =>
    obtain ⟨a, x⟩ := c
    rcases lt_trichotomy k a with hka | rfl | hka
    · by_cases hv : v = 0#8
      · simpa [Memory.write, hka, hv] using read_below h hka
      · simp [Memory.write, hka, hv, Memory.read]
    · by_cases hv : v = 0#8
      · simpa [Memory.write, hv] using read_head_tail h
      · simp [Memory.write, hv, Memory.read]
    · have hne : ¬k = a := by omega
      have hlt : ¬k < a := by omega
      simpa [Memory.write, hne, hlt, Memory.read] using ih (wf_tail h)

/-- A write leaves every other entry alone. -/
theorem read_write_ne {m : Memory} {k j : Nat} (v : Byte) (hj : j ≠ k) :
    (m.write k v).read j = m.read j := by
  induction m with
  | nil => by_cases hv : v = 0#8 <;> simp [Memory.write, Memory.read, hv, hj]
  | cons c m ih =>
    obtain ⟨a, x⟩ := c
    rcases lt_trichotomy k a with hka | rfl | hka
    · by_cases hv : v = 0#8 <;> simp [Memory.write, hka, hv, Memory.read, hj]
    · by_cases hv : v = 0#8 <;> simp [Memory.write, hv, Memory.read, hj]
    · have hne : ¬k = a := by omega
      have hlt : ¬k < a := by omega
      by_cases hja : j = a <;> simp [Memory.write, hne, hlt, Memory.read, hja, ih]

/-- What a write leaves first in a buffer: nothing, the written entry, or the old first entry. -/
theorem write_head_above {m : Memory} {b k : Nat} (v : Byte)
    (hb : (m.head?.all fun c => decide (b < c.1)) = true) (hk : b < k) (hw : m.wf = true) :
    ((m.write k v).head?.all fun c => decide (b < c.1)) = true := by
  cases m with
  | nil => by_cases hv : v = 0#8 <;> simp [Memory.write, hv, hk]
  | cons c m =>
    obtain ⟨a, x⟩ := c
    simp only [List.head?_cons, Option.all_some, decide_eq_true_eq] at hb
    rcases lt_trichotomy k a with hka | rfl | hka
    · by_cases hv : v = 0#8 <;> simp [Memory.write, hka, hv, hb, hk]
    · by_cases hv : v = 0#8
      · cases m with
        | nil => simp [Memory.write, hv]
        | cons d m =>
          have := wf_lt hw
          simp [Memory.write, hv]; omega
      · simp [Memory.write, hv, hk]
    · have hne : ¬k = a := by omega
      have hlt : ¬k < a := by omega
      simp [Memory.write, hne, hlt, hb]

/-- A write keeps the canonical form. -/
theorem write_wf {m : Memory} (h : m.wf = true) (k : Nat) (v : Byte) : (m.write k v).wf = true := by
  induction m with
  | nil => by_cases hv : v = 0#8 <;> simp [Memory.write, Memory.wf, hv]
  | cons c m ih =>
    obtain ⟨a, x⟩ := c
    rcases lt_trichotomy k a with hka | rfl | hka
    · by_cases hv : v = 0#8
      · simpa [Memory.write, hka, hv] using h
      · simp [Memory.write, hka, hv, Memory.wf] at h ⊢; exact h
    · by_cases hv : v = 0#8
      · simpa [Memory.write, hv] using wf_tail h
      · simp [Memory.write, hv, Memory.wf] at h ⊢; exact ⟨h.1.2, h.2⟩
    · have hne : ¬k = a := by omega
      have hlt : ¬k < a := by omega
      have ht := wf_tail h
      have hhead : (m.head?.all fun c => decide (a < c.1)) = true := by
        simp only [Memory.wf, Bool.and_eq_true] at h; exact h.1.2
      have := write_head_above v hhead hka ht
      simp only [Memory.write, if_neg hlt, if_neg hne, Memory.wf, Bool.and_eq_true]
      exact ⟨⟨by simpa using wf_head_ne h, this⟩, ih ht⟩

/-- A write below `n` keeps a buffer of `n` entries. -/
theorem write_within {m : Memory} {n k : Nat} (v : Byte) (h : m.within n = true) (hk : k < n) :
    (m.write k v).within n = true := by
  induction m with
  | nil => by_cases hv : v = 0#8 <;> simp [Memory.write, Memory.within, hv, hk]
  | cons c m ih =>
    obtain ⟨a, x⟩ := c
    simp only [Memory.within, List.all_cons, Bool.and_eq_true, decide_eq_true_eq] at h ih
    rcases lt_trichotomy k a with hka | rfl | hka
    · by_cases hv : v = 0#8 <;> simp [Memory.write, Memory.within, hka, hv, hk, h.1] <;>
        simpa using h.2
    · by_cases hv : v = 0#8 <;> simp [Memory.write, Memory.within, hv, hk] <;> simpa using h.2
    · have hne : ¬k = a := by omega
      have hlt : ¬k < a := by omega
      have := ih h.2
      simp only [Memory.write, if_neg hlt, if_neg hne, Memory.within, List.all_cons,
        Bool.and_eq_true, decide_eq_true_eq]
      exact ⟨h.1, this⟩

/-- A copy keeps the canonical form of its destination. -/
theorem copy_wf {src dst : Memory} (h : dst.wf = true) (n : Nat) : (src.copy n dst).wf = true := by
  induction n with
  | zero => exact h
  | succ n ih => exact write_wf ih _ _

/-- A copy of `n` entries keeps a buffer of at least `n` entries. -/
theorem copy_within {src dst : Memory} {n b : Nat} (h : dst.within b = true) (hn : n ≤ b) :
    (src.copy n dst).within b = true := by
  induction n with
  | zero => exact h
  | succ n ih => exact write_within _ (ih (by omega)) (by omega)

/-- After a copy of `n` entries, those entries read as the source's and the others as before. -/
theorem read_copy {src dst : Memory} (h : dst.wf = true) (n k : Nat) :
    (src.copy n dst).read k = if k < n then src.read k else dst.read k := by
  induction n with
  | zero => simp [Memory.copy]
  | succ n ih =>
    rw [Memory.copy]
    by_cases hk : k = n
    · subst hk; rw [read_write_same (copy_wf h k)]; simp
    · rw [read_write_ne _ hk, ih]
      by_cases hlt : k < n
      · rw [if_pos hlt, if_pos (by omega)]
      · rw [if_neg hlt, if_neg (by omega)]

end Sys2Proof.Laws
end

