-- ==== Sys2Proof/Laws/State.lean ====
section
/-! SUPPORT. The fields of a state after each shared update: one lemma per field per update, true by
unfolding the update once, so that no later proof unfolds a record update. -/

namespace Sys2Proof.Laws
open Sys2Proof.Machine

variable (w t : State)

/-! ### `State.enter` -/

@[simp] theorem enter_build (p : Point) : (w.enter p).build = w.build := rfl
@[simp] theorem enter_clkSync (p : Point) : (w.enter p).clkSync = w.clkSync := rfl
@[simp] theorem enter_datSync (p : Point) : (w.enter p).datSync = w.datSync := rfl
@[simp] theorem enter_ackSync (p : Point) : (w.enter p).ackSync = w.ackSync := rfl
@[simp] theorem enter_diPrev (p : Point) : (w.enter p).diPrev = w.diPrev := rfl
@[simp] theorem enter_clkOut (p : Point) : (w.enter p).clkOut = w.clkOut := rfl
@[simp] theorem enter_datOut (p : Point) : (w.enter p).datOut = w.datOut := rfl
@[simp] theorem enter_ackOut (p : Point) : (w.enter p).ackOut = w.ackOut := rfl
@[simp] theorem enter_point (p : Point) : (w.enter p).point = p := rfl
@[simp] theorem enter_cnt (p : Point) : (w.enter p).cnt = 0 := rfl
@[simp] theorem enter_rxAct (p : Point) : (w.enter p).rxAct = w.rxAct := rfl
@[simp] theorem enter_txAct (p : Point) : (w.enter p).txAct = w.txAct := rfl
@[simp] theorem enter_cmdAct (p : Point) : (w.enter p).cmdAct = w.cmdAct := rfl
@[simp] theorem enter_pendValid (p : Point) : (w.enter p).pendValid = w.pendValid := rfl
@[simp] theorem enter_pendOp (p : Point) : (w.enter p).pendOp = w.pendOp := rfl
@[simp] theorem enter_frameLen (p : Point) : (w.enter p).frameLen = w.frameLen := rfl
@[simp] theorem enter_frameDest (p : Point) : (w.enter p).frameDest = w.frameDest := rfl
@[simp] theorem enter_frameSrc (p : Point) : (w.enter p).frameSrc = w.frameSrc := rfl
@[simp] theorem enter_framePay (p : Point) : (w.enter p).framePay = w.framePay := rfl
@[simp] theorem enter_event0 (p : Point) : (w.enter p).event0 = w.event0 := rfl
@[simp] theorem enter_event1 (p : Point) : (w.enter p).event1 = w.event1 := rfl
@[simp] theorem enter_irqEn0 (p : Point) : (w.enter p).irqEn0 = w.irqEn0 := rfl
@[simp] theorem enter_irqEn1 (p : Point) : (w.enter p).irqEn1 = w.irqEn1 := rfl
@[simp] theorem enter_config (p : Point) : (w.enter p).config = w.config := rfl
@[simp] theorem enter_txLen (p : Point) : (w.enter p).txLen = w.txLen := rfl
@[simp] theorem enter_txDest (p : Point) : (w.enter p).txDest = w.txDest := rfl
@[simp] theorem enter_txByte (p : Point) : (w.enter p).txByte = w.txByte := rfl
@[simp] theorem enter_txBuf (p : Point) : (w.enter p).txBuf = w.txBuf := rfl
@[simp] theorem enter_rxByte (p : Point) : (w.enter p).rxByte = w.rxByte := rfl
@[simp] theorem enter_rxLen (p : Point) : (w.enter p).rxLen = w.rxLen := rfl
@[simp] theorem enter_rxDest (p : Point) : (w.enter p).rxDest = w.rxDest := rfl
@[simp] theorem enter_rxSrc (p : Point) : (w.enter p).rxSrc = w.rxSrc := rfl
@[simp] theorem enter_rxStore (p : Point) : (w.enter p).rxStore = w.rxStore := rfl
@[simp] theorem enter_cmdResult (p : Point) : (w.enter p).cmdResult = w.cmdResult := rfl
@[simp] theorem enter_diagLast (p : Point) : (w.enter p).diagLast = w.diagLast := rfl
@[simp] theorem enter_diagPos (p : Point) : (w.enter p).diagPos = w.diagPos := rfl
@[simp] theorem enter_diagCount (p : Point) : (w.enter p).diagCount = w.diagCount := rfl
@[simp] theorem enter_lastAttempts (p : Point) : (w.enter p).lastAttempts = w.lastAttempts := rfl
@[simp] theorem enter_inputs (p : Point) : (w.enter p).inputs = w.inputs := rfl

/-! ### `State.raise` -/

@[simp] theorem raise_build (e : Event) : (w.raise e).build = w.build := rfl
@[simp] theorem raise_clkSync (e : Event) : (w.raise e).clkSync = w.clkSync := rfl
@[simp] theorem raise_datSync (e : Event) : (w.raise e).datSync = w.datSync := rfl
@[simp] theorem raise_ackSync (e : Event) : (w.raise e).ackSync = w.ackSync := rfl
@[simp] theorem raise_diPrev (e : Event) : (w.raise e).diPrev = w.diPrev := rfl
@[simp] theorem raise_clkOut (e : Event) : (w.raise e).clkOut = w.clkOut := rfl
@[simp] theorem raise_datOut (e : Event) : (w.raise e).datOut = w.datOut := rfl
@[simp] theorem raise_ackOut (e : Event) : (w.raise e).ackOut = w.ackOut := rfl
@[simp] theorem raise_point (e : Event) : (w.raise e).point = w.point := rfl
@[simp] theorem raise_cnt (e : Event) : (w.raise e).cnt = w.cnt := rfl
@[simp] theorem raise_rxAct (e : Event) : (w.raise e).rxAct = w.rxAct := rfl
@[simp] theorem raise_txAct (e : Event) : (w.raise e).txAct = w.txAct := rfl
@[simp] theorem raise_cmdAct (e : Event) : (w.raise e).cmdAct = w.cmdAct := rfl
@[simp] theorem raise_pendValid (e : Event) : (w.raise e).pendValid = w.pendValid := rfl
@[simp] theorem raise_pendOp (e : Event) : (w.raise e).pendOp = w.pendOp := rfl
@[simp] theorem raise_frameLen (e : Event) : (w.raise e).frameLen = w.frameLen := rfl
@[simp] theorem raise_frameDest (e : Event) : (w.raise e).frameDest = w.frameDest := rfl
@[simp] theorem raise_frameSrc (e : Event) : (w.raise e).frameSrc = w.frameSrc := rfl
@[simp] theorem raise_framePay (e : Event) : (w.raise e).framePay = w.framePay := rfl
@[simp] theorem raise_event0 (e : Event) : (w.raise e).event0 = w.event0 ||| e.mask0 := rfl
@[simp] theorem raise_event1 (e : Event) : (w.raise e).event1 = w.event1 ||| e.mask1 := rfl
@[simp] theorem raise_irqEn0 (e : Event) : (w.raise e).irqEn0 = w.irqEn0 := rfl
@[simp] theorem raise_irqEn1 (e : Event) : (w.raise e).irqEn1 = w.irqEn1 := rfl
@[simp] theorem raise_config (e : Event) : (w.raise e).config = w.config := rfl
@[simp] theorem raise_txLen (e : Event) : (w.raise e).txLen = w.txLen := rfl
@[simp] theorem raise_txDest (e : Event) : (w.raise e).txDest = w.txDest := rfl
@[simp] theorem raise_txByte (e : Event) : (w.raise e).txByte = w.txByte := rfl
@[simp] theorem raise_txBuf (e : Event) : (w.raise e).txBuf = w.txBuf := rfl
@[simp] theorem raise_rxByte (e : Event) : (w.raise e).rxByte = w.rxByte := rfl
@[simp] theorem raise_rxLen (e : Event) : (w.raise e).rxLen = w.rxLen := rfl
@[simp] theorem raise_rxDest (e : Event) : (w.raise e).rxDest = w.rxDest := rfl
@[simp] theorem raise_rxSrc (e : Event) : (w.raise e).rxSrc = w.rxSrc := rfl
@[simp] theorem raise_rxStore (e : Event) : (w.raise e).rxStore = w.rxStore := rfl
@[simp] theorem raise_cmdResult (e : Event) : (w.raise e).cmdResult = w.cmdResult := rfl
@[simp] theorem raise_diagLast (e : Event) : (w.raise e).diagLast = w.diagLast := rfl
@[simp] theorem raise_diagPos (e : Event) : (w.raise e).diagPos = w.diagPos := rfl
@[simp] theorem raise_diagCount (e : Event) : (w.raise e).diagCount = w.diagCount := rfl
@[simp] theorem raise_lastAttempts (e : Event) : (w.raise e).lastAttempts = w.lastAttempts := rfl
@[simp] theorem raise_inputs (e : Event) : (w.raise e).inputs = w.inputs := rfl

/-! ### `State.linesIdle` -/

@[simp] theorem linesIdle_build : w.linesIdle.build = w.build := rfl
@[simp] theorem linesIdle_clkSync : w.linesIdle.clkSync = w.clkSync := rfl
@[simp] theorem linesIdle_datSync : w.linesIdle.datSync = w.datSync := rfl
@[simp] theorem linesIdle_ackSync : w.linesIdle.ackSync = w.ackSync := rfl
@[simp] theorem linesIdle_diPrev : w.linesIdle.diPrev = w.diPrev := rfl
@[simp] theorem linesIdle_clkOut : w.linesIdle.clkOut = true := rfl
@[simp] theorem linesIdle_datOut : w.linesIdle.datOut = true := rfl
@[simp] theorem linesIdle_ackOut : w.linesIdle.ackOut = true := rfl
@[simp] theorem linesIdle_point : w.linesIdle.point = w.point := rfl
@[simp] theorem linesIdle_cnt : w.linesIdle.cnt = w.cnt := rfl
@[simp] theorem linesIdle_rxAct : w.linesIdle.rxAct = w.rxAct := rfl
@[simp] theorem linesIdle_txAct : w.linesIdle.txAct = w.txAct := rfl
@[simp] theorem linesIdle_cmdAct : w.linesIdle.cmdAct = w.cmdAct := rfl
@[simp] theorem linesIdle_pendValid : w.linesIdle.pendValid = w.pendValid := rfl
@[simp] theorem linesIdle_pendOp : w.linesIdle.pendOp = w.pendOp := rfl
@[simp] theorem linesIdle_frameLen : w.linesIdle.frameLen = w.frameLen := rfl
@[simp] theorem linesIdle_frameDest : w.linesIdle.frameDest = w.frameDest := rfl
@[simp] theorem linesIdle_frameSrc : w.linesIdle.frameSrc = w.frameSrc := rfl
@[simp] theorem linesIdle_framePay : w.linesIdle.framePay = w.framePay := rfl
@[simp] theorem linesIdle_event0 : w.linesIdle.event0 = w.event0 := rfl
@[simp] theorem linesIdle_event1 : w.linesIdle.event1 = w.event1 := rfl
@[simp] theorem linesIdle_irqEn0 : w.linesIdle.irqEn0 = w.irqEn0 := rfl
@[simp] theorem linesIdle_irqEn1 : w.linesIdle.irqEn1 = w.irqEn1 := rfl
@[simp] theorem linesIdle_config : w.linesIdle.config = w.config := rfl
@[simp] theorem linesIdle_txLen : w.linesIdle.txLen = w.txLen := rfl
@[simp] theorem linesIdle_txDest : w.linesIdle.txDest = w.txDest := rfl
@[simp] theorem linesIdle_txByte : w.linesIdle.txByte = w.txByte := rfl
@[simp] theorem linesIdle_txBuf : w.linesIdle.txBuf = w.txBuf := rfl
@[simp] theorem linesIdle_rxByte : w.linesIdle.rxByte = w.rxByte := rfl
@[simp] theorem linesIdle_rxLen : w.linesIdle.rxLen = w.rxLen := rfl
@[simp] theorem linesIdle_rxDest : w.linesIdle.rxDest = w.rxDest := rfl
@[simp] theorem linesIdle_rxSrc : w.linesIdle.rxSrc = w.rxSrc := rfl
@[simp] theorem linesIdle_rxStore : w.linesIdle.rxStore = w.rxStore := rfl
@[simp] theorem linesIdle_cmdResult : w.linesIdle.cmdResult = w.cmdResult := rfl
@[simp] theorem linesIdle_diagLast : w.linesIdle.diagLast = w.diagLast := rfl
@[simp] theorem linesIdle_diagPos : w.linesIdle.diagPos = w.diagPos := rfl
@[simp] theorem linesIdle_diagCount : w.linesIdle.diagCount = w.diagCount := rfl
@[simp] theorem linesIdle_lastAttempts : w.linesIdle.lastAttempts = w.lastAttempts := rfl
@[simp] theorem linesIdle_inputs : w.linesIdle.inputs = w.inputs := rfl

/-! ### `State.beginCommand` -/

@[simp] theorem beginCommand_build : w.beginCommand.build = w.build := rfl
@[simp] theorem beginCommand_clkSync : w.beginCommand.clkSync = w.clkSync := rfl
@[simp] theorem beginCommand_datSync : w.beginCommand.datSync = w.datSync := rfl
@[simp] theorem beginCommand_ackSync : w.beginCommand.ackSync = w.ackSync := rfl
@[simp] theorem beginCommand_diPrev : w.beginCommand.diPrev = w.diPrev := rfl
@[simp] theorem beginCommand_clkOut : w.beginCommand.clkOut = w.clkOut := rfl
@[simp] theorem beginCommand_datOut : w.beginCommand.datOut = w.datOut := rfl
@[simp] theorem beginCommand_ackOut : w.beginCommand.ackOut = w.ackOut := rfl
@[simp] theorem beginCommand_point : w.beginCommand.point = w.point := rfl
@[simp] theorem beginCommand_cnt : w.beginCommand.cnt = w.cnt := rfl
@[simp] theorem beginCommand_rxAct : w.beginCommand.rxAct = w.rxAct := rfl
@[simp] theorem beginCommand_txAct : w.beginCommand.txAct = w.txAct := rfl
@[simp] theorem beginCommand_cmdAct : w.beginCommand.cmdAct = true := rfl
@[simp] theorem beginCommand_pendValid : w.beginCommand.pendValid = false := rfl
@[simp] theorem beginCommand_pendOp : w.beginCommand.pendOp = w.pendOp := rfl
@[simp] theorem beginCommand_frameLen : w.beginCommand.frameLen = w.frameLen := rfl
@[simp] theorem beginCommand_frameDest : w.beginCommand.frameDest = w.frameDest := rfl
@[simp] theorem beginCommand_frameSrc : w.beginCommand.frameSrc = w.frameSrc := rfl
@[simp] theorem beginCommand_framePay : w.beginCommand.framePay = w.framePay := rfl
@[simp] theorem beginCommand_event0 : w.beginCommand.event0 = w.event0 := rfl
@[simp] theorem beginCommand_event1 : w.beginCommand.event1 = w.event1 := rfl
@[simp] theorem beginCommand_irqEn0 : w.beginCommand.irqEn0 = w.irqEn0 := rfl
@[simp] theorem beginCommand_irqEn1 : w.beginCommand.irqEn1 = w.irqEn1 := rfl
@[simp] theorem beginCommand_config : w.beginCommand.config = w.config := rfl
@[simp] theorem beginCommand_txLen : w.beginCommand.txLen = w.txLen := rfl
@[simp] theorem beginCommand_txDest : w.beginCommand.txDest = w.txDest := rfl
@[simp] theorem beginCommand_txByte : w.beginCommand.txByte = w.txByte := rfl
@[simp] theorem beginCommand_txBuf : w.beginCommand.txBuf = w.txBuf := rfl
@[simp] theorem beginCommand_rxByte : w.beginCommand.rxByte = w.rxByte := rfl
@[simp] theorem beginCommand_rxLen : w.beginCommand.rxLen = w.rxLen := rfl
@[simp] theorem beginCommand_rxDest : w.beginCommand.rxDest = w.rxDest := rfl
@[simp] theorem beginCommand_rxSrc : w.beginCommand.rxSrc = w.rxSrc := rfl
@[simp] theorem beginCommand_rxStore : w.beginCommand.rxStore = w.rxStore := rfl
@[simp] theorem beginCommand_cmdResult : w.beginCommand.cmdResult = w.cmdResult := rfl
@[simp] theorem beginCommand_diagLast : w.beginCommand.diagLast = w.diagLast := rfl
@[simp] theorem beginCommand_diagPos : w.beginCommand.diagPos = w.diagPos := rfl
@[simp] theorem beginCommand_diagCount : w.beginCommand.diagCount = w.diagCount := rfl
@[simp] theorem beginCommand_lastAttempts : w.beginCommand.lastAttempts = w.lastAttempts := rfl
@[simp] theorem beginCommand_inputs : w.beginCommand.inputs = w.inputs := rfl

/-! ### `State.endReceive` -/

@[simp] theorem endReceive_build : w.endReceive.build = w.build := rfl
@[simp] theorem endReceive_clkSync : w.endReceive.clkSync = w.clkSync := rfl
@[simp] theorem endReceive_datSync : w.endReceive.datSync = w.datSync := rfl
@[simp] theorem endReceive_ackSync : w.endReceive.ackSync = w.ackSync := rfl
@[simp] theorem endReceive_diPrev : w.endReceive.diPrev = w.diPrev := rfl
@[simp] theorem endReceive_clkOut : w.endReceive.clkOut = w.clkOut := rfl
@[simp] theorem endReceive_datOut : w.endReceive.datOut = w.datOut := rfl
@[simp] theorem endReceive_ackOut : w.endReceive.ackOut = w.ackOut := rfl
@[simp] theorem endReceive_point : w.endReceive.point = .idle := rfl
@[simp] theorem endReceive_cnt : w.endReceive.cnt = 0 := rfl
@[simp] theorem endReceive_rxAct : w.endReceive.rxAct = false := rfl
@[simp] theorem endReceive_txAct : w.endReceive.txAct = w.txAct := rfl
@[simp] theorem endReceive_cmdAct : w.endReceive.cmdAct = w.cmdAct := rfl
@[simp] theorem endReceive_pendValid : w.endReceive.pendValid = w.pendValid := rfl
@[simp] theorem endReceive_pendOp : w.endReceive.pendOp = w.pendOp := rfl
@[simp] theorem endReceive_frameLen : w.endReceive.frameLen = w.frameLen := rfl
@[simp] theorem endReceive_frameDest : w.endReceive.frameDest = w.frameDest := rfl
@[simp] theorem endReceive_frameSrc : w.endReceive.frameSrc = w.frameSrc := rfl
@[simp] theorem endReceive_framePay : w.endReceive.framePay = w.framePay := rfl
@[simp] theorem endReceive_event0 : w.endReceive.event0 = w.event0 := rfl
@[simp] theorem endReceive_event1 : w.endReceive.event1 = w.event1 := rfl
@[simp] theorem endReceive_irqEn0 : w.endReceive.irqEn0 = w.irqEn0 := rfl
@[simp] theorem endReceive_irqEn1 : w.endReceive.irqEn1 = w.irqEn1 := rfl
@[simp] theorem endReceive_config : w.endReceive.config = w.config := rfl
@[simp] theorem endReceive_txLen : w.endReceive.txLen = w.txLen := rfl
@[simp] theorem endReceive_txDest : w.endReceive.txDest = w.txDest := rfl
@[simp] theorem endReceive_txByte : w.endReceive.txByte = w.txByte := rfl
@[simp] theorem endReceive_txBuf : w.endReceive.txBuf = w.txBuf := rfl
@[simp] theorem endReceive_rxByte : w.endReceive.rxByte = w.rxByte := rfl
@[simp] theorem endReceive_rxLen : w.endReceive.rxLen = w.rxLen := rfl
@[simp] theorem endReceive_rxDest : w.endReceive.rxDest = w.rxDest := rfl
@[simp] theorem endReceive_rxSrc : w.endReceive.rxSrc = w.rxSrc := rfl
@[simp] theorem endReceive_rxStore : w.endReceive.rxStore = w.rxStore := rfl
@[simp] theorem endReceive_cmdResult : w.endReceive.cmdResult = w.cmdResult := rfl
@[simp] theorem endReceive_diagLast : w.endReceive.diagLast = w.diagLast := rfl
@[simp] theorem endReceive_diagPos : w.endReceive.diagPos = w.diagPos := rfl
@[simp] theorem endReceive_diagCount : w.endReceive.diagCount = w.diagCount := rfl
@[simp] theorem endReceive_lastAttempts : w.endReceive.lastAttempts = w.lastAttempts := rfl
@[simp] theorem endReceive_inputs : w.endReceive.inputs = w.inputs := rfl

/-! ### `State.tick` -/

@[simp] theorem tick_build : (t.tick w).build = w.build := rfl
@[simp] theorem tick_clkSync : (t.tick w).clkSync = w.clkSync := rfl
@[simp] theorem tick_datSync : (t.tick w).datSync = w.datSync := rfl
@[simp] theorem tick_ackSync : (t.tick w).ackSync = w.ackSync := rfl
@[simp] theorem tick_diPrev : (t.tick w).diPrev = w.diPrev := rfl
@[simp] theorem tick_clkOut : (t.tick w).clkOut = w.clkOut := rfl
@[simp] theorem tick_datOut : (t.tick w).datOut = w.datOut := rfl
@[simp] theorem tick_ackOut : (t.tick w).ackOut = w.ackOut := rfl
@[simp] theorem tick_point : (t.tick w).point = w.point := rfl
@[simp] theorem tick_cnt : (t.tick w).cnt = t.cnt + 1 := rfl
@[simp] theorem tick_rxAct : (t.tick w).rxAct = w.rxAct := rfl
@[simp] theorem tick_txAct : (t.tick w).txAct = w.txAct := rfl
@[simp] theorem tick_cmdAct : (t.tick w).cmdAct = w.cmdAct := rfl
@[simp] theorem tick_pendValid : (t.tick w).pendValid = w.pendValid := rfl
@[simp] theorem tick_pendOp : (t.tick w).pendOp = w.pendOp := rfl
@[simp] theorem tick_frameLen : (t.tick w).frameLen = w.frameLen := rfl
@[simp] theorem tick_frameDest : (t.tick w).frameDest = w.frameDest := rfl
@[simp] theorem tick_frameSrc : (t.tick w).frameSrc = w.frameSrc := rfl
@[simp] theorem tick_framePay : (t.tick w).framePay = w.framePay := rfl
@[simp] theorem tick_event0 : (t.tick w).event0 = w.event0 := rfl
@[simp] theorem tick_event1 : (t.tick w).event1 = w.event1 := rfl
@[simp] theorem tick_irqEn0 : (t.tick w).irqEn0 = w.irqEn0 := rfl
@[simp] theorem tick_irqEn1 : (t.tick w).irqEn1 = w.irqEn1 := rfl
@[simp] theorem tick_config : (t.tick w).config = w.config := rfl
@[simp] theorem tick_txLen : (t.tick w).txLen = w.txLen := rfl
@[simp] theorem tick_txDest : (t.tick w).txDest = w.txDest := rfl
@[simp] theorem tick_txByte : (t.tick w).txByte = w.txByte := rfl
@[simp] theorem tick_txBuf : (t.tick w).txBuf = w.txBuf := rfl
@[simp] theorem tick_rxByte : (t.tick w).rxByte = w.rxByte := rfl
@[simp] theorem tick_rxLen : (t.tick w).rxLen = w.rxLen := rfl
@[simp] theorem tick_rxDest : (t.tick w).rxDest = w.rxDest := rfl
@[simp] theorem tick_rxSrc : (t.tick w).rxSrc = w.rxSrc := rfl
@[simp] theorem tick_rxStore : (t.tick w).rxStore = w.rxStore := rfl
@[simp] theorem tick_cmdResult : (t.tick w).cmdResult = w.cmdResult := rfl
@[simp] theorem tick_diagLast : (t.tick w).diagLast = w.diagLast := rfl
@[simp] theorem tick_diagPos : (t.tick w).diagPos = w.diagPos := rfl
@[simp] theorem tick_diagCount : (t.tick w).diagCount = w.diagCount := rfl
@[simp] theorem tick_lastAttempts : (t.tick w).lastAttempts = w.lastAttempts := rfl
@[simp] theorem tick_inputs : (t.tick w).inputs = w.inputs := rfl

/-! ### `State.raiseFailure` -/

@[simp] theorem raiseFailure_build (code : Byte) (pos : BytePos) :
    (w.raiseFailure code pos).build = w.build := by
  unfold State.raiseFailure State.raiseFailureEvents; split_ifs <;> rfl
@[simp] theorem raiseFailure_clkSync (code : Byte) (pos : BytePos) :
    (w.raiseFailure code pos).clkSync = w.clkSync := by
  unfold State.raiseFailure State.raiseFailureEvents; split_ifs <;> rfl
@[simp] theorem raiseFailure_datSync (code : Byte) (pos : BytePos) :
    (w.raiseFailure code pos).datSync = w.datSync := by
  unfold State.raiseFailure State.raiseFailureEvents; split_ifs <;> rfl
@[simp] theorem raiseFailure_ackSync (code : Byte) (pos : BytePos) :
    (w.raiseFailure code pos).ackSync = w.ackSync := by
  unfold State.raiseFailure State.raiseFailureEvents; split_ifs <;> rfl
@[simp] theorem raiseFailure_diPrev (code : Byte) (pos : BytePos) :
    (w.raiseFailure code pos).diPrev = w.diPrev := by
  unfold State.raiseFailure State.raiseFailureEvents; split_ifs <;> rfl
@[simp] theorem raiseFailure_clkOut (code : Byte) (pos : BytePos) :
    (w.raiseFailure code pos).clkOut = w.clkOut := by
  unfold State.raiseFailure State.raiseFailureEvents; split_ifs <;> rfl
@[simp] theorem raiseFailure_datOut (code : Byte) (pos : BytePos) :
    (w.raiseFailure code pos).datOut = w.datOut := by
  unfold State.raiseFailure State.raiseFailureEvents; split_ifs <;> rfl
@[simp] theorem raiseFailure_ackOut (code : Byte) (pos : BytePos) :
    (w.raiseFailure code pos).ackOut = w.ackOut := by
  unfold State.raiseFailure State.raiseFailureEvents; split_ifs <;> rfl
@[simp] theorem raiseFailure_point (code : Byte) (pos : BytePos) :
    (w.raiseFailure code pos).point = w.point := by
  unfold State.raiseFailure State.raiseFailureEvents; split_ifs <;> rfl
@[simp] theorem raiseFailure_cnt (code : Byte) (pos : BytePos) :
    (w.raiseFailure code pos).cnt = w.cnt := by
  unfold State.raiseFailure State.raiseFailureEvents; split_ifs <;> rfl
@[simp] theorem raiseFailure_rxAct (code : Byte) (pos : BytePos) :
    (w.raiseFailure code pos).rxAct = w.rxAct := by
  unfold State.raiseFailure State.raiseFailureEvents; split_ifs <;> rfl
@[simp] theorem raiseFailure_txAct (code : Byte) (pos : BytePos) :
    (w.raiseFailure code pos).txAct = w.txAct := by
  unfold State.raiseFailure State.raiseFailureEvents; split_ifs <;> rfl
@[simp] theorem raiseFailure_cmdAct (code : Byte) (pos : BytePos) :
    (w.raiseFailure code pos).cmdAct = w.cmdAct := by
  unfold State.raiseFailure State.raiseFailureEvents; split_ifs <;> rfl
@[simp] theorem raiseFailure_pendValid (code : Byte) (pos : BytePos) :
    (w.raiseFailure code pos).pendValid = w.pendValid := by
  unfold State.raiseFailure State.raiseFailureEvents; split_ifs <;> rfl
@[simp] theorem raiseFailure_pendOp (code : Byte) (pos : BytePos) :
    (w.raiseFailure code pos).pendOp = w.pendOp := by
  unfold State.raiseFailure State.raiseFailureEvents; split_ifs <;> rfl
@[simp] theorem raiseFailure_frameLen (code : Byte) (pos : BytePos) :
    (w.raiseFailure code pos).frameLen = w.frameLen := by
  unfold State.raiseFailure State.raiseFailureEvents; split_ifs <;> rfl
@[simp] theorem raiseFailure_frameDest (code : Byte) (pos : BytePos) :
    (w.raiseFailure code pos).frameDest = w.frameDest := by
  unfold State.raiseFailure State.raiseFailureEvents; split_ifs <;> rfl
@[simp] theorem raiseFailure_frameSrc (code : Byte) (pos : BytePos) :
    (w.raiseFailure code pos).frameSrc = w.frameSrc := by
  unfold State.raiseFailure State.raiseFailureEvents; split_ifs <;> rfl
@[simp] theorem raiseFailure_framePay (code : Byte) (pos : BytePos) :
    (w.raiseFailure code pos).framePay = w.framePay := by
  unfold State.raiseFailure State.raiseFailureEvents; split_ifs <;> rfl
@[simp] theorem raiseFailure_irqEn0 (code : Byte) (pos : BytePos) :
    (w.raiseFailure code pos).irqEn0 = w.irqEn0 := by
  unfold State.raiseFailure State.raiseFailureEvents; split_ifs <;> rfl
@[simp] theorem raiseFailure_irqEn1 (code : Byte) (pos : BytePos) :
    (w.raiseFailure code pos).irqEn1 = w.irqEn1 := by
  unfold State.raiseFailure State.raiseFailureEvents; split_ifs <;> rfl
@[simp] theorem raiseFailure_config (code : Byte) (pos : BytePos) :
    (w.raiseFailure code pos).config = w.config := by
  unfold State.raiseFailure State.raiseFailureEvents; split_ifs <;> rfl
@[simp] theorem raiseFailure_txLen (code : Byte) (pos : BytePos) :
    (w.raiseFailure code pos).txLen = w.txLen := by
  unfold State.raiseFailure State.raiseFailureEvents; split_ifs <;> rfl
@[simp] theorem raiseFailure_txDest (code : Byte) (pos : BytePos) :
    (w.raiseFailure code pos).txDest = w.txDest := by
  unfold State.raiseFailure State.raiseFailureEvents; split_ifs <;> rfl
@[simp] theorem raiseFailure_txByte (code : Byte) (pos : BytePos) :
    (w.raiseFailure code pos).txByte = w.txByte := by
  unfold State.raiseFailure State.raiseFailureEvents; split_ifs <;> rfl
@[simp] theorem raiseFailure_txBuf (code : Byte) (pos : BytePos) :
    (w.raiseFailure code pos).txBuf = w.txBuf := by
  unfold State.raiseFailure State.raiseFailureEvents; split_ifs <;> rfl
@[simp] theorem raiseFailure_rxByte (code : Byte) (pos : BytePos) :
    (w.raiseFailure code pos).rxByte = w.rxByte := by
  unfold State.raiseFailure State.raiseFailureEvents; split_ifs <;> rfl
@[simp] theorem raiseFailure_rxLen (code : Byte) (pos : BytePos) :
    (w.raiseFailure code pos).rxLen = w.rxLen := by
  unfold State.raiseFailure State.raiseFailureEvents; split_ifs <;> rfl
@[simp] theorem raiseFailure_rxDest (code : Byte) (pos : BytePos) :
    (w.raiseFailure code pos).rxDest = w.rxDest := by
  unfold State.raiseFailure State.raiseFailureEvents; split_ifs <;> rfl
@[simp] theorem raiseFailure_rxSrc (code : Byte) (pos : BytePos) :
    (w.raiseFailure code pos).rxSrc = w.rxSrc := by
  unfold State.raiseFailure State.raiseFailureEvents; split_ifs <;> rfl
@[simp] theorem raiseFailure_rxStore (code : Byte) (pos : BytePos) :
    (w.raiseFailure code pos).rxStore = w.rxStore := by
  unfold State.raiseFailure State.raiseFailureEvents; split_ifs <;> rfl
@[simp] theorem raiseFailure_cmdResult (code : Byte) (pos : BytePos) :
    (w.raiseFailure code pos).cmdResult = w.cmdResult := by
  unfold State.raiseFailure State.raiseFailureEvents; split_ifs <;> rfl
@[simp] theorem raiseFailure_diagLast (code : Byte) (pos : BytePos) :
    (w.raiseFailure code pos).diagLast = code := by
  unfold State.raiseFailure State.raiseFailureEvents; split_ifs <;> rfl
@[simp] theorem raiseFailure_diagPos (code : Byte) (pos : BytePos) :
    (w.raiseFailure code pos).diagPos = pos.code := by
  unfold State.raiseFailure State.raiseFailureEvents; split_ifs <;> rfl
@[simp] theorem raiseFailure_diagCount (code : Byte) (pos : BytePos) :
    (w.raiseFailure code pos).diagCount = incSat w.diagCount := by
  unfold State.raiseFailure State.raiseFailureEvents; split_ifs <;> rfl
@[simp] theorem raiseFailure_lastAttempts (code : Byte) (pos : BytePos) :
    (w.raiseFailure code pos).lastAttempts = w.lastAttempts := by
  unfold State.raiseFailure State.raiseFailureEvents; split_ifs <;> rfl
@[simp] theorem raiseFailure_inputs (code : Byte) (pos : BytePos) :
    (w.raiseFailure code pos).inputs = w.inputs := by
  unfold State.raiseFailure State.raiseFailureEvents; split_ifs <;> rfl

end Sys2Proof.Laws
end

