-- ==== Sys2Proof/Laws/Ops.lean ====
section
/-! SUPPORT. What the shared operations can do: a timed statement, a host access, the clock edge. -/

namespace Sys2Proof.Laws
open Sys2Proof.Machine

variable (s t w : State)

/-! ### Timed statements -/

/-- A `DELAY` that is not in its last cycle only counts. -/
theorem delay_of_lt {n : Nat} (k : State → State) (h : t.cnt + 1 < n) :
    t.delay w n k = t.tick w := by simp [State.delay, h]

/-- A `DELAY` in its last cycle goes on with what follows it. -/
theorem delay_of_le {n : Nat} (k : State → State) (h : n ≤ t.cnt + 1) : t.delay w n k = k w := by
  simp [State.delay]; omega

/-- Everything a `DELAY` can do. -/
theorem delay_cases (n : Nat) (k : State → State) :
    (t.cnt + 1 < n ∧ t.delay w n k = t.tick w) ∨ (n ≤ t.cnt + 1 ∧ t.delay w n k = k w) := by
  by_cases h : t.cnt + 1 < n
  · exact .inl ⟨h, delay_of_lt t w k h⟩
  · exact .inr ⟨by omega, delay_of_le t w k (by omega)⟩

/-- A `WAIT` whose condition holds is satisfied in this cycle. -/
theorem wait_of_met {cond : Bool} (n : Nat) (k : Bool → State → State) (h : cond = true) :
    t.wait w cond n k = k true w := by simp [State.wait, h]

/-- Everything a `WAIT` can do. -/
theorem wait_cases (cond : Bool) (n : Nat) (k : Bool → State → State) :
    (cond = true ∧ t.wait w cond n k = k true w) ∨
    (cond = false ∧ t.cnt + 1 < n ∧ t.wait w cond n k = t.tick w) ∨
    (cond = false ∧ n ≤ t.cnt + 1 ∧ t.wait w cond n k = k false w) := by
  cases cond with
  | true => exact .inl ⟨rfl, by simp [State.wait]⟩
  | false =>
    by_cases h : t.cnt + 1 < n
    · exact .inr (.inl ⟨rfl, h, by simp [State.wait, h]⟩)
    · exact .inr (.inr ⟨rfl, by omega, by simp [State.wait, h]⟩)

/-! ### Synchronisers -/

/-- A synchroniser keeps its depth. -/
@[simp] theorem shiftIn_length (pin : Level) (l : List Level) : (shiftIn pin l).length = l.length := by
  simp [shiftIn]

/-- A synchroniser in which every stage and the pin are 1 stays so. -/
theorem shiftIn_replicate (n : Nat) : shiftIn true (List.replicate n true) = List.replicate n true := by
  cases n with
  | zero => rfl
  | succ n =>
    rw [shiftIn, ← List.replicate_succ, List.dropLast_replicate]; rfl

/-! ### Host accesses -/

/-- Everything a CMD write can do (R93 to R95). -/
theorem writeCmd_cases (d : Byte) :
    (s.busy = true ∧ s.writeCmd d = s.raise .cmdRejected) ∨
    (s.busy = false ∧ s.writeCmd d = s.raise .cmdIllegal) ∨
    (s.busy = false ∧ (∃ i, decodeCmd d = .instr i ∧
        (i = .sendMsg → s.txLen.toNat ≤ s.build.maxLen)) ∧
      s.writeCmd d = { s with pendValid := true, pendOp := cmdOp d }) := by
  unfold State.writeCmd State.cmdVerdict
  cases hb : s.busy with
  | true => simp
  | false =>
    cases hd : decodeCmd d with
    | rejected e => simp
    | instr i =>
      cases i <;> simp
      by_cases hl : s.build.maxLen < s.txLen.toNat
      · simp [hl]
      · simp [hl]; omega

/-- Everything a write to a TX register can do (R60). -/
theorem writeTx_cases (s' : State) :
    (s.busy = true ∧ s.writeTx s' = s.raise .wrIgnored) ∨ (s.busy = false ∧ s.writeTx s' = s') := by
  cases hb : s.busy <;> simp [State.writeTx, hb]

/-! ### A host access leaves everything but the host-writable registers (R61) -/

/-- Everything a host access can change: the pending latch and the writable registers. -/
theorem hostAccess_eq : s.hostAccess = { s with
    event0 := s.hostAccess.event0,
    event1 := s.hostAccess.event1,
    irqEn0 := s.hostAccess.irqEn0,
    irqEn1 := s.hostAccess.irqEn1,
    config := s.hostAccess.config,
    txLen := s.hostAccess.txLen,
    txDest := s.hostAccess.txDest,
    txByte := s.hostAccess.txByte,
    txBuf := s.hostAccess.txBuf,
    diagCount := s.hostAccess.diagCount,
    pendValid := s.hostAccess.pendValid,
    pendOp := s.hostAccess.pendOp } := by
  unfold State.hostAccess State.hostWrite
  split
  · cases regAt s.now.hAddr with
    | cmd =>
      simp only [State.writeReg]
      rcases writeCmd_cases s s.now.hWdata with ⟨-, h⟩ | ⟨-, h⟩ | ⟨-, -, h⟩ <;> rw [h] <;> rfl
    | txBuf k =>
      simp only [State.writeReg, State.writeTxBuf, State.writeTx]; split_ifs <;> rfl
    | txLen => simp only [State.writeReg, State.writeTx]; split_ifs <;> rfl
    | txDest => simp only [State.writeReg, State.writeTx]; split_ifs <;> rfl
    | txByte => simp only [State.writeReg, State.writeTx]; split_ifs <;> rfl
    | _ => rfl
  · rfl

@[simp] theorem hostAccess_build : s.hostAccess.build = s.build :=
  (congrArg State.build (hostAccess_eq s)).trans rfl
@[simp] theorem hostAccess_clkSync : s.hostAccess.clkSync = s.clkSync :=
  (congrArg State.clkSync (hostAccess_eq s)).trans rfl
@[simp] theorem hostAccess_datSync : s.hostAccess.datSync = s.datSync :=
  (congrArg State.datSync (hostAccess_eq s)).trans rfl
@[simp] theorem hostAccess_ackSync : s.hostAccess.ackSync = s.ackSync :=
  (congrArg State.ackSync (hostAccess_eq s)).trans rfl
@[simp] theorem hostAccess_diPrev : s.hostAccess.diPrev = s.diPrev :=
  (congrArg State.diPrev (hostAccess_eq s)).trans rfl
@[simp] theorem hostAccess_clkOut : s.hostAccess.clkOut = s.clkOut :=
  (congrArg State.clkOut (hostAccess_eq s)).trans rfl
@[simp] theorem hostAccess_datOut : s.hostAccess.datOut = s.datOut :=
  (congrArg State.datOut (hostAccess_eq s)).trans rfl
@[simp] theorem hostAccess_ackOut : s.hostAccess.ackOut = s.ackOut :=
  (congrArg State.ackOut (hostAccess_eq s)).trans rfl
@[simp] theorem hostAccess_point : s.hostAccess.point = s.point :=
  (congrArg State.point (hostAccess_eq s)).trans rfl
@[simp] theorem hostAccess_cnt : s.hostAccess.cnt = s.cnt :=
  (congrArg State.cnt (hostAccess_eq s)).trans rfl
@[simp] theorem hostAccess_rxAct : s.hostAccess.rxAct = s.rxAct :=
  (congrArg State.rxAct (hostAccess_eq s)).trans rfl
@[simp] theorem hostAccess_txAct : s.hostAccess.txAct = s.txAct :=
  (congrArg State.txAct (hostAccess_eq s)).trans rfl
@[simp] theorem hostAccess_cmdAct : s.hostAccess.cmdAct = s.cmdAct :=
  (congrArg State.cmdAct (hostAccess_eq s)).trans rfl
@[simp] theorem hostAccess_frameLen : s.hostAccess.frameLen = s.frameLen :=
  (congrArg State.frameLen (hostAccess_eq s)).trans rfl
@[simp] theorem hostAccess_frameDest : s.hostAccess.frameDest = s.frameDest :=
  (congrArg State.frameDest (hostAccess_eq s)).trans rfl
@[simp] theorem hostAccess_frameSrc : s.hostAccess.frameSrc = s.frameSrc :=
  (congrArg State.frameSrc (hostAccess_eq s)).trans rfl
@[simp] theorem hostAccess_framePay : s.hostAccess.framePay = s.framePay :=
  (congrArg State.framePay (hostAccess_eq s)).trans rfl
@[simp] theorem hostAccess_rxByte : s.hostAccess.rxByte = s.rxByte :=
  (congrArg State.rxByte (hostAccess_eq s)).trans rfl
@[simp] theorem hostAccess_rxLen : s.hostAccess.rxLen = s.rxLen :=
  (congrArg State.rxLen (hostAccess_eq s)).trans rfl
@[simp] theorem hostAccess_rxDest : s.hostAccess.rxDest = s.rxDest :=
  (congrArg State.rxDest (hostAccess_eq s)).trans rfl
@[simp] theorem hostAccess_rxSrc : s.hostAccess.rxSrc = s.rxSrc :=
  (congrArg State.rxSrc (hostAccess_eq s)).trans rfl
@[simp] theorem hostAccess_rxStore : s.hostAccess.rxStore = s.rxStore :=
  (congrArg State.rxStore (hostAccess_eq s)).trans rfl
@[simp] theorem hostAccess_cmdResult : s.hostAccess.cmdResult = s.cmdResult :=
  (congrArg State.cmdResult (hostAccess_eq s)).trans rfl
@[simp] theorem hostAccess_diagLast : s.hostAccess.diagLast = s.diagLast :=
  (congrArg State.diagLast (hostAccess_eq s)).trans rfl
@[simp] theorem hostAccess_diagPos : s.hostAccess.diagPos = s.diagPos :=
  (congrArg State.diagPos (hostAccess_eq s)).trans rfl
@[simp] theorem hostAccess_lastAttempts : s.hostAccess.lastAttempts = s.lastAttempts :=
  (congrArg State.lastAttempts (hostAccess_eq s)).trans rfl
@[simp] theorem hostAccess_inputs : s.hostAccess.inputs = s.inputs :=
  (congrArg State.inputs (hostAccess_eq s)).trans rfl

/-! ### The clock edge -/

@[simp] theorem edge_build : t.edge.build = t.build := hostAccess_build t
@[simp] theorem edge_clkSync : t.edge.clkSync = shiftIn t.now.clkIn t.clkSync := rfl
@[simp] theorem edge_datSync : t.edge.datSync = shiftIn t.now.datIn t.datSync := rfl
@[simp] theorem edge_ackSync : t.edge.ackSync = shiftIn t.now.ackIn t.ackSync := rfl
@[simp] theorem edge_diPrev : t.edge.diPrev = t.di := rfl
@[simp] theorem edge_clkOut : t.edge.clkOut = t.clkOut := hostAccess_clkOut t
@[simp] theorem edge_datOut : t.edge.datOut = t.datOut := hostAccess_datOut t
@[simp] theorem edge_ackOut : t.edge.ackOut = t.ackOut := hostAccess_ackOut t
@[simp] theorem edge_point : t.edge.point = t.point := hostAccess_point t
@[simp] theorem edge_cnt : t.edge.cnt = t.cnt := hostAccess_cnt t
@[simp] theorem edge_rxAct : t.edge.rxAct = t.rxAct := hostAccess_rxAct t
@[simp] theorem edge_txAct : t.edge.txAct = t.txAct := hostAccess_txAct t
@[simp] theorem edge_cmdAct : t.edge.cmdAct = t.cmdAct := hostAccess_cmdAct t
theorem edge_pendValid : t.edge.pendValid = t.hostAccess.pendValid := rfl
theorem edge_pendOp : t.edge.pendOp = t.hostAccess.pendOp := rfl
@[simp] theorem edge_frameLen : t.edge.frameLen = t.frameLen := hostAccess_frameLen t
@[simp] theorem edge_frameDest : t.edge.frameDest = t.frameDest := hostAccess_frameDest t
@[simp] theorem edge_frameSrc : t.edge.frameSrc = t.frameSrc := hostAccess_frameSrc t
@[simp] theorem edge_framePay : t.edge.framePay = t.framePay := hostAccess_framePay t
theorem edge_event0 : t.edge.event0 = t.hostAccess.event0 := rfl
theorem edge_event1 : t.edge.event1 = t.hostAccess.event1 := rfl
theorem edge_irqEn0 : t.edge.irqEn0 = t.hostAccess.irqEn0 := rfl
theorem edge_irqEn1 : t.edge.irqEn1 = t.hostAccess.irqEn1 := rfl
theorem edge_config : t.edge.config = t.hostAccess.config := rfl
theorem edge_txLen : t.edge.txLen = t.hostAccess.txLen := rfl
theorem edge_txDest : t.edge.txDest = t.hostAccess.txDest := rfl
theorem edge_txByte : t.edge.txByte = t.hostAccess.txByte := rfl
theorem edge_txBuf : t.edge.txBuf = t.hostAccess.txBuf := rfl
@[simp] theorem edge_rxByte : t.edge.rxByte = t.rxByte := hostAccess_rxByte t
@[simp] theorem edge_rxLen : t.edge.rxLen = t.rxLen := hostAccess_rxLen t
@[simp] theorem edge_rxDest : t.edge.rxDest = t.rxDest := hostAccess_rxDest t
@[simp] theorem edge_rxSrc : t.edge.rxSrc = t.rxSrc := hostAccess_rxSrc t
@[simp] theorem edge_rxStore : t.edge.rxStore = t.rxStore := hostAccess_rxStore t
@[simp] theorem edge_cmdResult : t.edge.cmdResult = t.cmdResult := hostAccess_cmdResult t
@[simp] theorem edge_diagLast : t.edge.diagLast = t.diagLast := hostAccess_diagLast t
@[simp] theorem edge_diagPos : t.edge.diagPos = t.diagPos := hostAccess_diagPos t
theorem edge_diagCount : t.edge.diagCount = t.hostAccess.diagCount := rfl
@[simp] theorem edge_lastAttempts : t.edge.lastAttempts = t.lastAttempts := hostAccess_lastAttempts t
@[simp] theorem edge_inputs : t.edge.inputs = t.inputs.tail := rfl

/-- While the block is BUSY no host access changes a TX register or the pending latch (R60, R93). -/
theorem hostAccess_of_busy (h : s.busy = true) :
    s.hostAccess.txLen = s.txLen ∧ s.hostAccess.txDest = s.txDest ∧
      s.hostAccess.txByte = s.txByte ∧ s.hostAccess.txBuf = s.txBuf ∧
      s.hostAccess.pendValid = s.pendValid ∧ s.hostAccess.pendOp = s.pendOp := by
  unfold State.hostAccess State.hostWrite
  split
  · cases regAt s.now.hAddr with
    | cmd =>
      simp only [State.writeReg]
      rcases writeCmd_cases s s.now.hWdata with ⟨-, e⟩ | ⟨hb, -⟩ | ⟨hb, -⟩
      · rw [e]; exact ⟨rfl, rfl, rfl, rfl, rfl, rfl⟩
      · rw [h] at hb; cases hb
      · rw [h] at hb; cases hb
    | txBuf k =>
      simp only [State.writeReg, State.writeTxBuf, State.writeTx, h, if_true]
      split_ifs <;> exact ⟨rfl, rfl, rfl, rfl, rfl, rfl⟩
    | txLen => simp [State.writeReg, State.writeTx, h, State.raise]
    | txDest => simp [State.writeReg, State.writeTx, h, State.raise]
    | txByte => simp [State.writeReg, State.writeTx, h, State.raise]
    | _ => exact ⟨rfl, rfl, rfl, rfl, rfl, rfl⟩
  · exact ⟨rfl, rfl, rfl, rfl, rfl, rfl⟩

/-- Without a write access the host changes nothing (R58). -/
theorem hostAccess_of_no_write (h : (s.now.hSel && s.now.hWe) = false) : s.hostAccess = s := by
  simp [State.hostAccess, h]

end Sys2Proof.Laws
end

