-- ==== Sys2Proof/Laws/PerInstr.lean ====
section
/-! SUPPORT. Statements made once per operation: its encoding has the format of its row of the opcode
table, and the decoder reads the operation back from the row's word. -/

namespace Sys2Proof.Laws.Encodes

/-- The row of spec/opcode_table.json of an operation: how many bits its format has, and its word. -/
def row : Instr → Nat × Nat
  | .nop => (8, 0x00)
  | .sendMsg => (8, 0x01)
  | .phyStart => (8, 0x02)
  | .phyStop => (8, 0x03)
  | .sendByte => (8, 0x04)
  | .recvByte => (8, 0x05)
  | .linesIdle => (8, 0x06)
  | .msgReceive => (3, 0b110)

/-- The operation's encoding is its row's word, in its row's format, and decodes to the operation. -/
def Statement (i : Instr) : Prop :=
  tableEncoding (row i).1 (row i).2 = some (encode i) ∧
    decodeTableWord (row i).1 (row i).2 = some i

theorem nop : Statement .nop := by unfold Statement; decide
theorem sendMsg : Statement .sendMsg := by unfold Statement; decide
theorem phyStart : Statement .phyStart := by unfold Statement; decide
theorem phyStop : Statement .phyStop := by unfold Statement; decide
theorem sendByte : Statement .sendByte := by unfold Statement; decide
theorem recvByte : Statement .recvByte := by unfold Statement; decide
theorem linesIdle : Statement .linesIdle := by unfold Statement; decide
theorem msgReceive : Statement .msgReceive := by unfold Statement; decide

end Sys2Proof.Laws.Encodes
end

