-- ==== Sys2Proof/Laws/Step.lean ====
section
/-! SUPPORT. What a cycle can do, and runs of cycles. -/

namespace Sys2Proof.Laws
open Sys2Proof.Machine

/-- The segment with which an operation starts. -/
def startOf : Instr → State → State → State
  | .nop => State.startNop
  | .sendMsg => State.startSendMsg
  | .phyStart => State.startPhyStart
  | .phyStop => State.startPhyStop
  | .sendByte => State.startSendByte
  | .recvByte => State.startRecvByte
  | .linesIdle => State.startLinesIdle
  | .msgReceive => State.startMsgReceive

/-- Every operation answers a next state: its start at `IDLE_POLL`, else the running operation. -/
theorem exec_eq (i : Instr) (s : State) : exec i s = .next (s.operate (startOf i)) := by
  cases i <;> rfl

/-- At `IDLE_POLL` an operation starts. -/
theorem operate_of_idle {s : State} (f : State → State → State) (h : s.point = .idle) :
    s.operate f = f s s.edge := by simp [State.operate, h]

/-- Away from `IDLE_POLL` the running operation goes on. -/
theorem operate_of_running {s : State} (f : State → State → State) (h : s.point ≠ .idle) :
    s.operate f = s.resume s.edge := by
  unfold State.operate; split
  · contradiction
  · rfl

/-- Away from `IDLE_POLL` the fetched operation is the running one. -/
theorem fetch_of_running {s : State} (h : s.point ≠ .idle) :
    ∃ i, s.point.instr = some i ∧ s.fetch = some (.instr i) := by
  unfold State.fetch
  cases hp : s.point <;> simp_all [Point.instr]

/-- At `IDLE_POLL` the fetched operation is what the poll gives. -/
theorem fetch_of_idle {s : State} (h : s.point = .idle) : s.fetch = s.poll := by
  simp [State.fetch, h, Point.instr]

/-- Everything a step can do. -/
theorem step_cases {s t : State} (h : step s = .next t) :
    (s.now.rst = true ∧ t = s.resetEdge) ∨
    (s.now.rst = false ∧ s.point ≠ .idle ∧ t = s.resume s.edge) ∨
    (s.now.rst = false ∧ s.point = .idle ∧ s.poll = none ∧ t = s.edge) ∨
    (s.now.rst = false ∧ s.point = .idle ∧
      ∃ i, s.poll = some (.instr i) ∧ t = startOf i s s.edge) := by
  unfold step at h
  split at h
  · rename_i hr; injection h with h; exact .inl ⟨hr, h.symm⟩
  · rename_i hr
    have hr' : s.now.rst = false := by simpa using hr
    by_cases hp : s.point = .idle
    · rw [fetch_of_idle hp] at h
      split at h
      · rename_i hf; injection h with h; exact .inr (.inr (.inl ⟨hr', hp, hf, h.symm⟩))
      · rename_i i hf
        rw [exec_eq, operate_of_idle _ hp] at h
        injection h with h
        exact .inr (.inr (.inr ⟨hr', hp, i, hf, h.symm⟩))
      · cases h
    · obtain ⟨i, -, hf⟩ := fetch_of_running hp
      rw [hf] at h
      simp only [exec_eq, operate_of_running _ hp] at h
      injection h with h
      exact .inr (.inl ⟨hr', hp, h.symm⟩)

/-- A running operation without reset: the next state. -/
theorem step_of_running {s : State} (hr : s.now.rst = false) (hp : s.point ≠ .idle) :
    step s = .next (s.resume s.edge) := by
  obtain ⟨i, -, hf⟩ := fetch_of_running hp
  simp [step, hr, hf, exec_eq, operate_of_running _ hp]

/-- An operation that starts: the next state. -/
theorem exec_of_starts {s : State} {i : Instr} (h : s.starts i) :
    exec i s = .next (startOf i s s.edge) := by
  rw [exec_eq, operate_of_idle _ h.2.1]

/-! ### The same cycle without a write -/

/-- With the host's write to the address, `noWriteTo` takes the access away. -/
theorem noWriteTo_of_writes {s : State} {a : Addr} {d : Byte} (h : s.writes a d) :
    s.noWriteTo a = s.noAccess := if_pos ⟨h.2.1, h.2.2.1, h.2.2.2.1⟩

/-- With no write to the address, `noWriteTo` changes nothing. -/
theorem noWriteTo_of_not {s : State} {a : Addr}
    (h : ¬(s.now.hSel = true ∧ s.now.hWe = true ∧ s.now.hAddr = a)) : s.noWriteTo a = s := if_neg h

/-! ### Events and failure points -/

/-- Masking what an `or` gives is `or` of the masked parts. -/
theorem masked_or (x m m' : Byte) :
    ((x ||| m) &&& m' != 0) = ((x &&& m' != 0) || (m &&& m' != 0)) := by
  rw [BitVec.and_comm, BitVec.and_or_distrib_left, BitVec.and_comm m' x, BitVec.and_comm m' m]
  rw [Bool.eq_iff_iff]
  simp only [bne_iff_ne, ne_eq, Bool.or_eq_true]
  rw [show (0 : Byte) = 0#8 from rfl, BitVec.or_eq_zero_iff, not_and_or]

/-- Raising an event sets its flag and no other (R35, R151). -/
@[simp] theorem raise_flag (w : State) (e e' : Event) :
    (w.raise e).flag e' = (w.flag e' || decide (e' = e)) := by
  have h : (e.mask0 &&& e'.mask0 != 0 || e.mask1 &&& e'.mask1 != 0) = decide (e' = e) := by
    cases e <;> cases e' <;> rfl
  rw [← h]
  simp only [State.flag, State.raise, masked_or]
  ac_rfl

/-- A failure point sets its step code's events and no other (R141). -/
theorem raiseFailure_flag (w : State) (code : Byte) (pos : BytePos) (e : Event) :
    (w.raiseFailure code pos).flag e = (w.flag e || decide (e ∈ failureEvents code)) := by
  unfold State.raiseFailure State.raiseFailureEvents failureEvents
  split
  · simp [Bool.or_assoc]; rfl
  · split
    · simp; rfl
    · split
      · simp; rfl
      · simp; rfl

/-- DIAG_COUNT is the register at 0x012, and at no other address (R56). -/
theorem regAt_diagCount (a : Addr) : regAt a = .diagCount ↔ a = 0x012 := by
  constructor
  · intro h
    unfold regAt at h
    split at h <;> first
      | contradiction
      | split_ifs at h
      | (apply BitVec.eq_of_toNat_eq; assumption)
  · rintro rfl; rfl

/-- A host write changes DIAG_COUNT only at its own address, where it clears it (R49). -/
theorem writeReg_diagCount (s : State) (r : Reg) (d : Byte) :
    (s.writeReg r d).diagCount = if r = .diagCount then 0 else s.diagCount := by
  cases r <;> simp only [State.writeReg, State.writeCmd, State.writeTx, State.writeTxBuf,
    reduceCtorEq, if_true, if_false]
  all_goals repeat' split
  all_goals rfl

/-- The clock edge leaves DIAG_COUNT as the host's access leaves it (R49, R61). -/
theorem edge_diagCount_eq (s : State) : s.edge.diagCount = s.countAfterHost := by
  rw [edge_diagCount]
  unfold State.hostAccess State.hostWrite State.countAfterHost
  simp only [Bool.and_eq_true, ← regAt_diagCount]
  split_ifs <;> simp_all [writeReg_diagCount]

/-- A failure point raised after the clock edge is recorded as the claims say. -/
theorem failurePoint_of_raiseFailure (s : State) (code : Byte) (pos : BytePos) :
    failurePoint s (s.edge.raiseFailure code pos) code pos.code := by
  refine ⟨by simp, by simp, ?_, fun e _ => raiseFailure_flag _ _ _ e⟩
  simp [edge_diagCount_eq, incSat]

/-! ### Runs -/

@[simp] theorem run_zero (s : State) : run 0 s = .next s := rfl

/-- One more cycle first. -/
theorem run_succ_of_step {n : Nat} {s t : State} (h : step s = .next t) : run (n + 1) s = run n t := by
  simp [run, h]

/-- A run is a run and then another. -/
theorem run_add {m n : Nat} {s t : State} (h : run m s = .next t) : run (m + n) s = run n t := by
  induction m generalizing s with
  | zero => simp [run] at h; simp [h]
  | succ m ih =>
    rw [Nat.succ_add]
    cases hs : step s with
    | next u => rw [run_succ_of_step hs] at h ⊢; exact ih h
    | fault f => simp [run, hs] at h
    | refused r => simp [run, hs] at h

/-- The runs of the claims are the runs of the host's interface. -/
theorem run_eq_core_run (n : Nat) (s : State) : run n s = Sys2Proof.core.run n s := by
  induction n generalizing s with
  | zero => rfl
  | succ n ih =>
    have hc : Sys2Proof.core.step s = step s := rfl
    cases hs : step s with
    | next t => simp only [run, hs, Host.Core.run, hc]; exact ih t
    | fault f => simp only [run, hs, Host.Core.run, hc]; rfl
    | refused r => simp only [run, hs, Host.Core.run, hc]; rfl

/-- No reset in `n + 1` cycles: none now, and none in the `n` after. -/
theorem noReset_succ {s : State} {n : Nat} (h : s.noReset (n + 1)) :
    s.now.rst = false ∧ ∀ x ∈ s.inputs.tail.take n, x.rst = false := by
  cases hi : s.inputs with
  | nil => simp [State.now, hi, Input.undriven]
  | cons x xs =>
    have h' : ∀ y ∈ (x :: xs).take (n + 1), y.rst = false := by rw [← hi]; exact h
    simp only [List.take_succ_cons, List.mem_cons, forall_eq_or_imp] at h'
    simpa [State.now, hi] using h'

end Sys2Proof.Laws
end

