-- ==== Sys2Proof/Tests/Slice0.lean ====
section
/-! SUPPORT. Tests of the definitions, each expected result taken from the rule its docstring names,
and for every statement of Certificates/Slice0/Obligations.lean with hypotheses a witness that meets
them. All nodes here are built as `TV` (spec/00_scope.md R9) unless they say otherwise. -/

namespace Sys2Proof.Tests

open Sys2Proof.Machine

/-! ## Small states -/

/-- Node '1' after reset, with the inputs `xs`. -/
def node (xs : List Input) : State := State.resetOf (Build.tv 0x31) xs

/-- Node '1' with the opcode `op` pending: it is dispatched in this cycle. -/
def pending (op : BitVec 4) (xs : List Input) : State :=
  { node xs with pendValid := true, pendOp := op }

/-- Node '1' at a control point in its first cycle. -/
def running (p : Point) (xs : List Input) : State := { node xs with point := p }

/-- A cycle in which the two inbound lines have these levels. -/
def pins (clk dat : Level) : Input := { Input.undriven with clkIn := clk, datIn := dat }

/-- A cycle in which ACK_IN is low. -/
def ackLow : Input := { Input.undriven with ackIn := false }

/-- A cycle with `rst` = 1. -/
def resetCycle : Input := { Input.undriven with rst := true }

/-- A host write of `d` to address `a`. -/
def hostWrites (a : Addr) (d : Byte) : Input :=
  { Input.undriven with hSel := true, hWe := true, hAddr := a, hWdata := d }

/-- One bit on the inbound lines: a cycle with the clock low, one with it high. -/
def bitWave (b : Level) : List Input := [pins false b, pins true b]

/-- A byte and its 9th clock pulse on the inbound lines (R81, R82), after one more low cycle. -/
def byteWave (v : Byte) : List Input :=
  pins false (v.getLsbD 7) ::
    ([7, 6, 5, 4, 3, 2, 1, 0].map fun j => bitWave (v.getLsbD j)).flatten ++ bitWave (v.getLsbD 0)

/-- A node with one synchroniser stage and at most one payload byte. -/
def short : Build := { Build.tv 0x31 with syncStages := 1, maxLen := 1, edgeTimeout := 4 }

/-- A node that sees a start condition in this cycle, followed by the given bytes on its lines. -/
def hearing (b : Build) (bytes : List Byte) : State :=
  { State.resetOf b (bytes.map byteWave).flatten with datSync := [false] }

/-! ## Well-formedness -/

/-- R74: RSV must be 0000. -/
theorem test_wf_refuses_reserved_bits : (Encoding.cmd8 0b00010000#8).wf = false := by decide
/-- R73, R74: OP 0x7 and 0xF are reserved. -/
theorem test_wf_refuses_reserved_opcode : (Encoding.cmd8 0x07#8).wf = false ∧
    (Encoding.cmd8 0x0F#8).wf = false := by decide
/-- R77: only 110 is the start condition. -/
theorem test_wf_refuses_other_line_patterns :
    ∀ w : BitVec 3, w ≠ 0b110#3 → (Encoding.line3 w).wf = false := by decide
/-- R7: a node id is the code of a hexadecimal digit. -/
theorem test_build_wf_refuses_id : (Build.tv 0x2F).wf = false ∧ (Build.tv 0x3A).wf = false ∧
    (Build.tv 0x40).wf = false ∧ (Build.tv 0x47).wf = false := by decide
theorem test_build_wf_refuses_maxLen : { Build.tv 0x31 with maxLen := 256 }.wf = false := by decide
theorem test_build_wf_refuses_retryMax : { Build.tv 0x31 with retryMax := 0 }.wf = false ∧
    { Build.tv 0x31 with retryMax := 256 }.wf = false := by decide
theorem test_build_wf_refuses_timeouts : { Build.tv 0x31 with ackTimeout := 0 }.wf = false ∧
    { Build.tv 0x31 with edgeTimeout := 0 }.wf = false := by decide
theorem test_build_wf_refuses_delays : { Build.tv 0x31 with tDelay := 0 }.wf = false ∧
    { Build.tv 0x31 with tUnit := 0 }.wf = false ∧
    { Build.tv 0x31 with tSettle := 0 }.wf = false := by decide
theorem test_build_wf_refuses_syncStages : { Build.tv 0x31 with syncStages := 0 }.wf = false := by
  decide
theorem test_build_wf_accepts : (Build.tv 0x30).wf = true ∧ (Build.tv 0x46).wf = true ∧
    Build.reference.wf = true := by decide

/-! ## Decoding: every operation's encoding written out (R73, R77) -/

theorem test_decode_nop : decode (.cmd8 0b00000000#8) = .instr .nop := by decide
theorem test_decode_sendMsg : decode (.cmd8 0b00000001#8) = .instr .sendMsg := by decide
theorem test_decode_phyStart : decode (.cmd8 0b00000010#8) = .instr .phyStart := by decide
theorem test_decode_phyStop : decode (.cmd8 0b00000011#8) = .instr .phyStop := by decide
theorem test_decode_sendByte : decode (.cmd8 0b00000100#8) = .instr .sendByte := by decide
theorem test_decode_recvByte : decode (.cmd8 0b00000101#8) = .instr .recvByte := by decide
theorem test_decode_linesIdle : decode (.cmd8 0b00000110#8) = .instr .linesIdle := by decide
theorem test_decode_msgReceive : decode (.line3 0b110#3) = .instr .msgReceive := by decide
/-- R74: a reserved opcode, reserved bits and both. -/
theorem test_decode_rejects : decode (.cmd8 0b00000111#8) = .rejected .reservedOpcode ∧
    decode (.cmd8 0b10000001#8) = .rejected .reservedBits ∧
    decode (.cmd8 0b00010111#8) = .rejected .reservedBits ∧
    decode (.line3 0b100#3) = .rejected .noStart := by decide
/-- The rows of spec/opcode_table.json, at the widths the table gives them. -/
theorem test_decodeTableWord : decodeTableWord 8 0x05 = some .recvByte ∧
    decodeTableWord 3 0b110 = some .msgReceive ∧ decodeTableWord 8 0x07 = none ∧
    decodeTableWord 3 0b010 = none ∧ decodeTableWord 16 0 = none := by decide
/-- A placed word is the operation of the next step. -/
theorem test_withFetchWord : (State.reset.withFetchWord 8 0x04).fetch = some (.instr .sendByte) ∧
    (State.reset.withFetchWord 3 0b110).fetch = some (.instr .msgReceive) ∧
    (State.reset.withFetchWord 8 0x17).fetch = none := by decide

/-! ## Operations, one cycle each -/

/-- The state that a step answers; the state itself where it answers none. -/
def next (s : State) : State :=
  match step s with
  | .next t => t
  | .fault _ => s
  | .refused _ => s

/-- R98's example, cycle 11 to 12. -/
theorem test_nop_completes : (next (pending 0x0 [])).readReg .status = 0x00 ∧
    (next (pending 0x0 [])).readReg .event0 = 0x01 ∧
    (next (pending 0x0 [])).readReg .cmdResult = 0x00 := by decide

/-- R105: LINES_IDLE raises the three outputs in its dispatch cycle. -/
theorem test_linesIdle_raises :
    let s : State := { pending 0x6 [] with clkOut := false, datOut := false, ackOut := false }
    (next s).readReg .lines = 0x3F ∧ (next s).readReg .event0 = 0x01 := by decide

/-- R103: dispatched with both lines low, PHY_START raises clock and data together in one edge. -/
theorem test_phyStart_raises :
    let s : State := { pending 0x2 [] with clkOut := false, datOut := false }
    (next s).clkOut = true ∧ (next s).datOut = true ∧ (next s).readReg .status = 0x11 := by decide
/-- R103's example, cycle 13 to 14. -/
theorem test_phyStart_ends :
    let s : State := { running (.phyStart .low) [] with datOut := false, cmdAct := true }
    (next s).readReg .lines = 0x3D ∧ (next s).readReg .event0 = 0x01 ∧
      (next s).readReg .status = 0x00 := by decide

/-- R104: with both lines low the clock rises first. -/
theorem test_phyStop_raises_clock_first :
    let s : State := { pending 0x3 [] with clkOut := false, datOut := false }
    (next s).clkOut = true ∧ (next s).datOut = false := by decide
/-- R101, R104's example, cycle 16 to 17. -/
theorem test_phyStop_raises_data :
    (next { running (.phyStop .clock) [] with datOut := false }).datOut = true := by decide

/-- R121's example with ACK_IN held 0, cycle 36 to 37: the premature-ack check. -/
theorem test_sendByte_premature_ack :
    let s : State := { running (.sendByte ⟨0x3C, .clockHigh 7⟩) [] with
      ackSync := [false, false], datOut := false }
    (next s).readReg .diagLast = 0x30 ∧ (next s).readReg .event0 = 0x41 ∧
      (next s).readReg .event1 = 0x20 ∧ (next s).readReg .cmdResult = 0x01 := by decide
/-- R121's example, cycle 52 to 53: the wait times out. -/
theorem test_sendByte_times_out :
    let s : State := { running (.sendByte ⟨0x3C, .ackWait⟩) [] with
      clkOut := false, datOut := false, cnt := 15 }
    (next s).readReg .diagLast = 0x31 ∧ (next s).readReg .diagPos = 0xFF ∧
      (next s).readReg .event0 = 0x41 ∧ (next s).readReg .lines = 0x3C := by decide

/-- R114, R116: bit 3 is sampled where the clock is seen high, then the accumulator is shifted. -/
theorem test_recvByte_samples :
    (next (running (.recvByte ⟨0b00001010, .rise 3⟩) [])).point =
      .recvByte ⟨0b00010110, .fall 4⟩ := by decide
/-- R122 (b): a timeout of the wait for bit 3 returns the partial byte. -/
theorem test_recvByte_partial :
    let s : State := { running (.recvByte ⟨0x0A, .fall 3⟩) [] with cnt := 15 }
    (next s).readReg .rxByte = 0x0A ∧ (next s).readReg .diagLast = 0x13 ∧
      (next s).readReg .cmdResult = 0x01 ∧ (next s).readReg .event0 = 0x81 := by decide

/-- A SEND_MSG whose last byte is over, with an empty TX message. -/
def sentOnce (fail : Bool) (attempt : Nat) : State :=
  running (.sendMsg ⟨.tx, attempt, fail, 2, .stop .data⟩) []

/-- R124: a successful attempt ends SEND_MSG. -/
theorem test_sendMsg_ends : (next (sentOnce false 2)).readReg .event0 = 0x11 ∧
    (next (sentOnce false 2)).readReg .lastAttempts = 0x02 ∧
    (next (sentOnce false 2)).point = .idle := by decide
/-- R125: the third of three attempts is the last. -/
theorem test_sendMsg_abandons : (next (sentOnce true 3)).readReg .event0 = 0x21 ∧
    (next (sentOnce true 3)).readReg .cmdResult = 0x01 ∧
    (next (sentOnce true 2)).point = .sendMsg ⟨.tx, 3, false, 0, .start .high⟩ := by decide

/-- R89, R90: the start condition is taken first; the command stays pending. -/
theorem test_msgReceive_starts :
    let s : State := { pending 0x0 [] with datSync := [true, false] }
    (next s).point = .receive (.length ⟨0, .fall 0⟩) ∧ (next s).readReg .event1 = 0x40 ∧
      (next s).readReg .status = 0x07 := by decide
/-- R129, R130: the sender byte is this node's, the recipient is not: STALE_ECHO, at once idle. -/
theorem test_msgReceive_stale_echo :
    let s : State := { running (.receive (.sender ⟨0x31, .ackFall⟩)) [] with
      clkSync := [false, false], frameDest := 0x32, frameLen := 0xFF, ackOut := false }
    (next s).point = .idle ∧ (next s).readReg .event1 = 0x10 ∧ (next s).ackOut = true := by decide

/-! ## Shared operations -/

/-- R61, R49: a host clear of DIAG_COUNT and a failure point at one edge leave 1. -/
theorem test_diagCount_clear_then_count :
    let s : State := { running (.sendByte ⟨0, .ackWait⟩) [hostWrites 0x012 0] with
      cnt := 15, diagCount := 7 }
    (next s).readReg .diagCount = 0x01 := by decide
/-- R35: a set wins over a clear at one edge. -/
theorem test_event_set_wins :
    let s : State := { pending 0x0 [hostWrites 0x003 0xFF] with event0 := 0x81 }
    (next s).readReg .event0 = 0x01 := by decide
/-- R48, R141: frame position 257 records 0xFE, a stand-alone command 0xFF. -/
theorem test_diagPos_saturates : (BytePos.frame 257).code = 0xFE ∧ (BytePos.frame 3).code = 0x03 ∧
    BytePos.alone.code = 0xFF := by decide
/-- R22: a level reaches the block after `SYNC_STAGES` cycles. -/
theorem test_synchroniser : (next (node [pins false true])).ci = true ∧
    (next (next (node [pins false true]))).ci = false := by decide
/-- A buffer keeps its canonical form: writing 0 removes the entry. -/
theorem test_memory_write : Memory.write [(1, 5), (3, 6)] 3 0 = [(1, 5)] ∧
    Memory.write [(1, 5)] 0 7 = [(0, 7), (1, 5)] ∧ Memory.read [(1, 5)] 0 = 0 := by decide
/-- R88: `LOADTX '2', "HI"`. -/
theorem test_loadTx : stmtLoadTx 0x32 [0x48, 0x49] =
    [.wr 0x008 0x02, .wr 0x009 0x32, .wr 0x100 0x48, .wr 0x101 0x49] := by decide
/-- R58, R59: what a script's read is held against is `h_rdata`, which is 0x00 while `rst` = 1. -/
theorem test_script_read :
    (hostAct 0 (node []) [.rd 0x007 0x05]).2.2 = [] ∧
    (hostAct 0 (node [resetCycle]) [.rd 0x007 0x05]).2.2 = [(0x007, 0x05, 0x00)] := by decide
/-- R88, R59: a POLL goes on while `h_rdata` does not match, also in a cycle of reset. -/
theorem test_script_poll :
    (hostAct 0 (node []) [.poll 0x007 0x01 0x01]).2.1 = [] ∧
    (hostAct 0 (node [resetCycle]) [.poll 0x007 0x01 0x01]).2.1 = [.poll 0x007 0x01 0x01] := by
  decide
/-- R160: in a chain, the upstream node's outputs are the downstream node's inputs. -/
theorem test_ring_wiring :
    let a : State := { node [] with clkOut := false }
    let b : State := { node [] with ackOut := false }
    let r := Ring.chain [a, b]
    (r.wired 1 b).now.clkIn = false ∧ (r.wired 0 a).now.ackIn = false ∧
      (r.wired 0 a).now.clkIn = true ∧ (r.wired 1 b).now.ackIn = true := by decide

/-- A step from `s` answers a next state. -/
def answers (s : State) : Bool :=
  match step s with
  | .next _ => true
  | .fault _ => false
  | .refused _ => false

theorem next_of_answers {s : State} (h : answers s = true) : ∃ t, step s = .next t := by
  unfold answers at h
  split at h
  · exact ⟨_, ‹_›⟩
  · cases h
  · cases h

/-! ## Witnesses: for each statement with hypotheses, a state and operands that meet them -/

theorem witness_OpcodeMap : 7 ≤ ((0x07#8).extractLsb' 0 4).toNat ∧
    7 ≤ ((0x1F#8).extractLsb' 0 4).toNat := by decide

theorem witness_DecodeAndEncodeAgree : Instr.msgReceive.wf = true ∧
    decode (.cmd8 0x06) = .instr .linesIdle := by decide

/-- At `IDLE_POLL`, and in a running operation. -/
theorem witness_StepRunsTheFetchedOperation :
    ((pending 0x4 []).now.rst = false ∧ (pending 0x4 []).fetch = some (.instr .sendByte)) ∧
    ((running (.phyStop .data) []).now.rst = false ∧
      (running (.phyStop .data) []).fetch = some (.instr .phyStop)) := by decide

/-- One state for each clause: a start condition with a command pending, a command, neither. -/
theorem witness_StartConditionGoesBeforeCommand :
    ((pending 0x1 []).now.hSel && (pending 0x1 []).now.hWe) = false ∧
    (let s : State := { pending 0x1 [] with datSync := [true, false] }
     s.now.rst = false ∧ s.point = .idle ∧ s.autoRx = true ∧ s.startDet = true ∧
      s.pendValid = true) ∧
    (let s := pending 0x1 []
     s.now.rst = false ∧ s.point = .idle ∧ ¬(s.autoRx = true ∧ s.startDet = true) ∧
      s.pendValid = true ∧ decodeCmd (0#4 ++ s.pendOp) = .instr .sendMsg) ∧
    (let s : State := { node [] with datSync := [true, false], config := 0x04 }
     s.now.rst = false ∧ s.point = .idle ∧ ¬(s.autoRx = true ∧ s.startDet = true) ∧
      s.pendValid = false) := by decide

/-- Both directions: the fall is seen in the next cycle, and it is not. -/
theorem witness_StartDetectionSeesTheFall :
    (let s : State := { node [] with datSync := [false, true] }
     s.now.rst = false ∧ ∃ t, step s = .next t ∧ t.startDet = true) ∧
    ((node []).now.rst = false ∧ ∃ t, step (node []) = .next t ∧ t.startDet = false) :=
  ⟨⟨by decide, _, rfl, by decide⟩, by decide, _, rfl, by decide⟩

theorem witness_RunningOperationGoesOn :
    (running (.receive .settle) []).now.rst = false ∧
      (running (.receive .settle) []).point ≠ .idle := by decide

theorem witness_ResetAbandonsEverything :
    (running (.receive .settle) [resetCycle]).now.rst = true := by decide

theorem witness_ResetValues : Reg.event0 ≠ .id ∧ Reg.event0 ≠ .config ∧ Reg.event0 ≠ .lines ∧
    Reg.event0 ≠ .paramMaxLen ∧ Reg.event0 ≠ .paramRetry ∧
    true ∈ (node []).clkSync ++ (node []).datSync ++ (node []).ackSync := by decide

/-- One input for each clause. -/
theorem witness_HostReadHasNoSideEffect :
    (let s := node [{ Input.undriven with hSel := true, hAddr := 0x003 }]
     s.now.hWe = false ∧ s.now.rst = false ∧ s.now.hSel = true) ∧
    (node []).now.hSel = false ∧ (node [resetCycle]).now.rst = true ∧ (node [hostWrites 0x001 0x00]).now.hWe = true := by decide

theorem witness_BusyCmdWriteIsRejected :
    (pending 0x0 [hostWrites 0x001 0xFF]).writes 0x001 0xFF ∧
    (pending 0x0 [hostWrites 0x001 0xFF]).busy = true ∧
    ∃ t, step (pending 0x0 [hostWrites 0x001 0xFF]).noAccess = .next t :=
  ⟨by decide, by decide, _, rfl⟩

/-- One write for each clause. -/
theorem witness_IllegalCmdWriteIsRefused :
    ((node [hostWrites 0x001 0x10]).writes 0x001 0x10 ∧
      (node [hostWrites 0x001 0x10]).busy = false ∧
      (∃ t, step (node [hostWrites 0x001 0x10]).noAccess = .next t) ∧
      (0x10#8).extractLsb' 4 4 ≠ 0#4) ∧
    ((node [hostWrites 0x001 0x07]).writes 0x001 0x07 ∧
      (node [hostWrites 0x001 0x07]).busy = false ∧
      (∃ t, step (node [hostWrites 0x001 0x07]).noAccess = .next t) ∧
      7 ≤ ((0x07#8).extractLsb' 0 4).toNat) ∧
    (let s : State := { node [hostWrites 0x001 0x01] with txLen := 9 }
     s.writes 0x001 0x01 ∧ s.busy = false ∧ (∃ t, step s.noAccess = .next t) ∧
      (0x01#8).extractLsb' 0 4 = 1#4 ∧ s.build.maxLen < s.txLen.toNat) :=
  ⟨⟨by decide, by decide, ⟨_, rfl⟩, by decide⟩, ⟨by decide, by decide, ⟨_, rfl⟩, by decide⟩,
    by decide, by decide, ⟨_, rfl⟩, by decide, by decide⟩

/-- The longest message that SEND_MSG accepts. -/
theorem witness_LegalCmdWriteIsLatched :
    let s : State := { node [hostWrites 0x001 0x01] with txLen := 8 }
    s.writes 0x001 0x01 ∧ s.busy = false ∧ (∃ t, step s.noAccess = .next t) ∧
      (0x01#8).extractLsb' 4 4 = 0#4 ∧ ((0x01#8).extractLsb' 0 4).toNat < 7 ∧
      ¬((0x01#8).extractLsb' 0 4 = 1#4 ∧ s.build.maxLen < s.txLen.toNat) :=
  ⟨by decide, by decide, ⟨_, rfl⟩, by decide, by decide, by decide⟩

/-- The addresses at the ends of both clauses. -/
theorem witness_BusyTxWriteIsIgnored :
    (∀ a ∈ [0x008#10, 0x009#10, 0x00A#10, 0x100#10, 0x107#10],
      (pending 0x0 [hostWrites a 0x55]).writes a 0x55 ∧
      (pending 0x0 [hostWrites a 0x55]).busy = true ∧
      (a.toNat = 0x008 ∨ a.toNat = 0x009 ∨ a.toNat = 0x00A ∨
        (0x100 ≤ a.toNat ∧ a.toNat < 0x200 ∧ a.toNat - 0x100 < (Build.tv 0x31).maxLen))) ∧
    (∀ a ∈ [0x108#10, 0x1FF#10],
      (pending 0x0 [hostWrites a 0x55]).writes a 0x55 ∧
      (pending 0x0 [hostWrites a 0x55]).busy = true ∧
      0x100 ≤ a.toNat ∧ a.toNat < 0x200 ∧ (Build.tv 0x31).maxLen ≤ a.toNat - 0x100) ∧
    ∀ a ∈ [0x008#10, 0x009#10, 0x00A#10, 0x100#10, 0x107#10, 0x108#10, 0x1FF#10],
      ∃ t, step (pending 0x0 [hostWrites a 0x55]).noAccess = .next t :=
  ⟨by decide, by decide, fun a h => next_of_answers ((by decide : ∀ a ∈ [0x008#10, 0x009#10, 0x00A#10, 0x100#10, 0x107#10,
    0x108#10, 0x1FF#10], answers (pending 0x0 [hostWrites a 0x55]).noAccess = true) a h)⟩

theorem witness_IdleTxWriteIsStored :
    (∀ a ∈ [0x008#10, 0x009#10, 0x00A#10, 0x100#10, 0x107#10],
      (node [hostWrites a 0x55]).writes a 0x55 ∧ (node [hostWrites a 0x55]).busy = false ∧
      (node [hostWrites a 0x55]).txBuf.wf = true ∧
      (a.toNat = 0x008 ∨ a.toNat = 0x009 ∨ a.toNat = 0x00A ∨
        (0x100 ≤ a.toNat ∧ a.toNat < 0x200 ∧ a.toNat - 0x100 < (Build.tv 0x31).maxLen))) ∧
    (∀ a ∈ [0x008#10, 0x009#10, 0x00A#10, 0x100#10, 0x107#10],
      ∃ t, step (node [hostWrites a 0x55]).noAccess = .next t) ∧
    (∀ b ∈ [0x008#10, 0x009#10, 0x00A#10, 0x100#10, 0x1FF#10],
      b.toNat = 0x008 ∨ b.toNat = 0x009 ∨ b.toNat = 0x00A ∨ (0x100 ≤ b.toNat ∧ b.toNat < 0x200)) ∧
    0x100 ≤ (0x107#10).toNat :=
  ⟨by decide, fun a h => next_of_answers
    ((by decide : ∀ a ∈ [0x008#10, 0x009#10, 0x00A#10, 0x100#10, 0x107#10],
      answers (node [hostWrites a 0x55]).noAccess = true) a h), by decide, by decide⟩

theorem witness_ConfigAndMaskWritesLandAtTheEdge :
    (∀ a ∈ [0x005#10, 0x006#10, 0x007#10], (node [hostWrites a 0xFF]).writes a 0xFF) ∧
    ∀ a ∈ [0x005#10, 0x006#10, 0x007#10],
      ∃ t, step (node [hostWrites a 0xFF]).noAccess = .next t :=
  ⟨by decide, fun a h => next_of_answers ((by decide : ∀ a ∈ [0x005#10, 0x006#10, 0x007#10],
    answers (node [hostWrites a 0xFF]).noAccess = true) a h)⟩

/-- The addresses at the ends of every range. -/
theorem witness_ReservedAndReadOnlyAccesses :
    (∀ a ∈ [0x001#10, 0x017#10, 0x0FF#10, 0x300#10, 0x3FF#10, 0x108#10, 0x1FF#10, 0x208#10,
        0x2FF#10],
      a.toNat = 0x001 ∨ (0x017 ≤ a.toNat ∧ a.toNat ≤ 0x0FF) ∨ 0x300 ≤ a.toNat ∨
        (0x100 ≤ a.toNat ∧ a.toNat < 0x200 ∧ (Build.tv 0x31).maxLen ≤ a.toNat - 0x100) ∨
        (0x200 ≤ a.toNat ∧ a.toNat < 0x300 ∧ (Build.tv 0x31).maxLen ≤ a.toNat - 0x200)) ∧
    ∀ a ∈ [0x000#10, 0x002#10, 0x00B#10, 0x011#10, 0x013#10, 0x0FF#10, 0x108#10, 0x1FF#10,
        0x200#10, 0x3FF#10],
      (node [hostWrites a 0xFF]).writes a 0xFF ∧
        (a.toNat = 0x000 ∨ a.toNat = 0x002 ∨ (0x00B ≤ a.toNat ∧ a.toNat ≤ 0x011) ∨
          (0x013 ≤ a.toNat ∧ a.toNat ≤ 0x0FF) ∨ 0x200 ≤ a.toNat ∨
          (0x100 ≤ a.toNat ∧ a.toNat < 0x200 ∧ (Build.tv 0x31).maxLen ≤ a.toNat - 0x100)) := by
  decide

/-- The clauses about reserved bits: one write for each of the three registers. -/
theorem witness_ReservedAndReadOnlyAccesses_reserved_bits :
    ((node [hostWrites 0x004 0xFF]).Inv ∧ (node [hostWrites 0x004 0xFF]).writes 0x004 0xFF ∧
      (0x004#10).toNat = 0x004 ∧ (0x7F#8) = 0x7F) ∧
    ((node [hostWrites 0x006 0xFF]).Inv ∧ (node [hostWrites 0x006 0xFF]).writes 0x006 0xFF ∧
      (0x006#10).toNat = 0x006 ∧ (0x7F#8) = 0x7F) ∧
    ((node [hostWrites 0x007 0xFF]).Inv ∧ (node [hostWrites 0x007 0xFF]).writes 0x007 0xFF ∧
      (0x007#10).toNat = 0x007 ∧ (0x07#8) = 0x07) := by
  refine ⟨⟨?_, by decide, rfl, rfl⟩, ⟨?_, by decide, rfl, rfl⟩, ?_, by decide, rfl, rfl⟩ <;>
    (constructor <;> first | exact trivial | decide)

/-- A cycle that clears and one that does not, in each register. -/
theorem witness_EventFlagsAreSticky :
    ∀ a ∈ [0x003#10, 0x004#10, 0x005#10],
      (pending 0x0 [hostWrites a 0xFF]).now.rst = false ∧
      (∃ t, step { (pending 0x0 [hostWrites a 0xFF]).noWriteTo 0x003 with event0 := 0 } = .next t) ∧
        ∃ t, step { (pending 0x0 [hostWrites a 0xFF]).noWriteTo 0x004 with event1 := 0 } =
          .next t := by
  have h : ∀ a ∈ [0x003#10, 0x004#10, 0x005#10],
      (pending 0x0 [hostWrites a 0xFF]).now.rst = false ∧
      answers { (pending 0x0 [hostWrites a 0xFF]).noWriteTo 0x003 with event0 := 0 } = true ∧
      answers { (pending 0x0 [hostWrites a 0xFF]).noWriteTo 0x004 with event1 := 0 } = true := by
    decide
  exact fun a ha => ⟨(h a ha).1, next_of_answers (h a ha).2.1, next_of_answers (h a ha).2.2⟩

/-- A cycle with a failure point and a clear, and one with neither. -/
theorem witness_DiagCountClearsThenCounts :
    (let s : State := { running (.recvByte ⟨0, .fall 0⟩) [hostWrites 0x012 0] with cnt := 15 }
     s.now.rst = false ∧
      ∃ t, step { s.noWriteTo 0x012 with diagCount := 0 } = .next t ∧ t.diagCount = 1) ∧
    ((node []).now.rst = false ∧
      ∃ t, step { (node []).noWriteTo 0x012 with diagCount := 0 } = .next t ∧ t.diagCount = 0) :=
  ⟨⟨by decide, _, rfl, by decide⟩, by decide, _, rfl, by decide⟩

theorem witness_MasksChangeOnlyTheInterruptRequest :
    (pending 0x0 []).now.rst = false ∧
    ((pending 0x0 []).now.hSel && (pending 0x0 []).now.hWe) = false ∧
    ∃ t, step (pending 0x0 []) = .next t := ⟨by decide, by decide, _, rfl⟩

theorem witness_NopCompletesAtOnce : (pending 0x0 []).point = .idle := by decide

theorem witness_LinesIdleCompletesAtOnce : (pending 0x6 []).point = .idle := by decide

theorem witness_PhyStartMakesAStartCondition :
    (pending 0x2 []).starts .phyStart ∧ 1 ≤ (pending 0x2 []).build.tDelay ∧
    (pending 0x2 []).noReset (1 + 2 * (pending 0x2 []).build.tDelay) := by decide

theorem witness_PhyStopMakesAStopCondition :
    (pending 0x3 []).starts .phyStop ∧ 1 ≤ (pending 0x3 []).build.tDelay ∧
    (pending 0x3 []).noReset (1 + 2 * (pending 0x3 []).build.tDelay) := by decide

/-- The first and the last bit cell; with the last one the clause about the next has no case. -/
theorem witness_BitCellWaveform :
    ∀ j ∈ [(0 : Fin 8), 6, 7],
      let s : State := { running (.sendByte ⟨0xA5, .clockLow j⟩) [] with clkOut := false }
      s.point.sending? = some ⟨0xA5, .clockLow j⟩ ∧ s.cnt = 0 ∧ s.clkOut = false ∧
        1 ≤ s.build.tUnit ∧ s.noReset (1 + 2 * s.build.tUnit) := by decide

/-- The acknowledgement seen in the second cycle of the wait. -/
theorem witness_SendByteAcknowledged :
    let s := pending 0x4 (List.replicate 24 Input.undriven ++ [ackLow])
    let c := s.build.cells
    s.starts .sendByte ∧ s.syncsOk ∧ 1 ≤ s.build.tUnit ∧ 1 ≤ 2 ∧ 2 ≤ s.build.ackTimeout ∧
      s.noReset (1 + c + 2 + s.build.tUnit) ∧ s.aiAt c = true ∧
      (∀ i, 1 ≤ i → i < 2 → s.aiAt (c + i) = true) ∧ s.aiAt (c + 2) = false := by
  refine ⟨by decide, by decide, by decide, by decide, by decide, by decide, by decide, ?_,
    by decide⟩
  intro i h1 h2
  obtain rfl : i = 1 := by omega
  decide

theorem witness_SendByteMeetsPrematureAck :
    let s := pending 0x4 (List.replicate 22 Input.undriven ++ [ackLow])
    s.starts .sendByte ∧ s.syncsOk ∧ 1 ≤ s.build.tUnit ∧ s.noReset (1 + s.build.cells) ∧
      s.aiAt s.build.cells = false := by decide

theorem witness_SendByteTimesOut :
    let s := pending 0x4 []
    s.starts .sendByte ∧ s.syncsOk ∧ 1 ≤ s.build.tUnit ∧ 1 ≤ s.build.ackTimeout ∧
      s.noReset (1 + s.build.cells + s.build.ackTimeout) ∧
      ∀ i, i ≤ s.build.ackTimeout → s.aiAt (s.build.cells + i) = true := by decide

/-- A byte received without and with a timeout. -/
theorem witness_RecvByteFollowsItsPseudocode :
    (let s := pending 0x5 (byteWave 0xA5 ++ [pins false true])
     let r := recvByteFrom s.build.edgeTimeout s.ciAt s.diAt 1
     s.starts .recvByte ∧ s.syncsOk ∧ 1 ≤ s.build.edgeTimeout ∧ s.noReset (1 + r.last) ∧
      r.code = 0x00 ∧ r.acc = 0xA5) ∧
    (let s := pending 0x5 []
     let r := recvByteFrom s.build.edgeTimeout s.ciAt s.diAt 1
     s.starts .recvByte ∧ s.syncsOk ∧ 1 ≤ s.build.edgeTimeout ∧ s.noReset (1 + r.last) ∧
      r.code = 0x10) := by decide

theorem witness_RecvByteReadsMsbFirst :
    (let s := pending 0x5 (byteWave 0xA5 ++ [pins false true])
     let r := recvByteFrom s.build.edgeTimeout s.ciAt s.diAt 1
     s.starts .recvByte ∧ s.syncsOk ∧ 1 ≤ s.build.edgeTimeout ∧ s.noReset (1 + r.last) ∧
      r.code = 0x00) ∧
    (let s := pending 0x5 (byteWave 0xA5)
     let r := recvByteFrom s.build.edgeTimeout s.ciAt s.diAt 1
     s.starts .recvByte ∧ s.syncsOk ∧ 1 ≤ s.build.edgeTimeout ∧ s.noReset (1 + r.last) ∧
      0x20 ≤ r.code.toNat) := by decide

/-- An empty message whose three bytes are acknowledged in the first cycle of their waits. -/
theorem witness_SendMsgAcknowledged :
    let s := pending 0x1 (List.replicate 3 (List.replicate 25 Input.undriven ++ [ackLow])).flatten
    let c := s.build.cells
    let byteTime := c + 1 + s.build.tUnit
    let bytes := 3 + s.txLen.toNat
    s.starts .sendMsg ∧ s.syncsOk ∧ 1 ≤ s.build.tUnit ∧ 1 ≤ s.build.tDelay ∧ 1 ≤ 1 ∧
      1 ≤ s.build.ackTimeout ∧ s.noReset (1 + (4 * s.build.tDelay + bytes * byteTime)) ∧
      ∀ p, p < bytes → s.aiAt (2 * s.build.tDelay + p * byteTime + c) = true ∧
        (∀ i, 1 ≤ i → i < 1 → s.aiAt (2 * s.build.tDelay + p * byteTime + c + i) = true) ∧
        s.aiAt (2 * s.build.tDelay + p * byteTime + c + 1) = false := by
  refine ⟨by decide, by decide, by decide, by decide, by decide, by decide, by decide, ?_⟩
  intro p hp
  have hp : p < 3 := hp
  refine ⟨?_, fun i h1 h2 => by omega, ?_⟩ <;> interval_cases p <;> decide

/-- Two attempts, with nothing connected. -/
theorem witness_SendMsgAbandoned :
    let s : State := { pending 0x1 [] with
      build := { Build.tv 0x31 with retryMax := 2, ackTimeout := 1 } }
    let bytes := 3 + s.txLen.toNat
    let n := s.build.retryMax * (4 * s.build.tDelay + bytes * (s.build.cells + s.build.ackTimeout))
    s.starts .sendMsg ∧ s.syncsOk ∧ s.build.wf = true ∧ s.noReset (1 + n) ∧
      ∀ i, i ≤ n → s.aiAt i = true := by
  refine ⟨by decide, by decide, by decide, by decide, fun i _ => ?_⟩
  rcases i with _ | _ | i <;> rfl

theorem witness_SendMsgAbandoned_quiet_end :
    let s : State := { pending 0x1 [] with
      build := { Build.tv 0x31 with retryMax := 2, ackTimeout := 1 } }
    let n := s.build.retryMax *
      (4 * s.build.tDelay + (3 + s.txLen.toNat) * (s.build.cells + s.build.ackTimeout))
    ∀ x ∈ (s.inputs.drop (1 + (n - 2 * s.build.tDelay))).take (2 * s.build.tDelay),
      (x.hSel && x.hWe) = false := by decide

/-- The first byte of an empty message begins. -/
theorem witness_SendMsgSendsTheTxRegisters : ∃ (t u : State) (m : MsgSendAct) (a : SendByteAct),
    (pending 0x1 []).starts .sendMsg ∧ (pending 0x1 []).noReset (1 + 2) ∧
    exec .sendMsg (pending 0x1 []) = .next t ∧
    (∀ i, i ≤ 2 → ∃ w, run i t = .next w ∧ w.point.instr = some .sendMsg) ∧
    run 2 t = .next u ∧ u.point = .sendMsg m ∧ m.pt = .byte a := by
  refine ⟨_, _, _, _, by decide, by decide, rfl, fun i hi => ?_, rfl, rfl, rfl⟩
  interval_cases i <;> exact ⟨_, rfl, rfl⟩

/-- Node '1' at a control point of a `MsgSend`, with the synchronised acknowledgement `ai`. -/
def sending (f : FrameSource) (m : MsgSendAct) (ai : Level) (c : Nat) : State :=
  { running (msgSendPoint f m) [] with ackSync := [true, ai], cnt := c }

/-- The dispatch of a SEND_MSG; and every kind of step of an attempt, in a SEND_MSG and in a relay:
cycles before the last of a timed statement, and the last of each. -/
theorem witness_AttemptGoesThroughTheFrame :
    (pending 0x1 []).starts .sendMsg ∧
    (∀ f ∈ [FrameSource.tx, FrameSource.frame], ∀ q ∈ [MsgSendPt.start .high, .start .low,
        .byte ⟨0xA5, .clockLow 0⟩, .byte ⟨0xA5, .clockLow 7⟩, .byte ⟨0xA5, .dataLow 3⟩,
        .byte ⟨0xA5, .clockHigh 0⟩, .byte ⟨0xA5, .clockHigh 6⟩, .byte ⟨0xA5, .clockHigh 7⟩,
        .byte ⟨0xA5, .ackPulse⟩, .stop .clock],
      ∀ p ∈ [0, 2],
        let s := sending f ⟨f, 1, false, p, q⟩ true 0
        s.now.rst = false ∧ s.point = msgSendPoint f ⟨f, 1, false, p, q⟩ ∧ s.ai = true ∧
          s.build.tUnit ≤ s.cnt + 1 ∧ s.build.tDelay ≤ s.cnt + 1 ∧
          (p = 0 → p + 1 < s.frameCount f) ∧ (p = 2 → s.frameCount f ≤ p + 1)) ∧
    ∀ f ∈ [FrameSource.tx, FrameSource.frame],
      let m : MsgSendAct := ⟨f, 1, false, 2, .byte ⟨0xA5, .ackWait⟩⟩
      (sending f m true 14).cnt + 1 < m.limit (sending f m true 14).build ∧
        (sending f m true 14).ai = true ∧ (sending f m false 15).ai = false := by decide

/-- A premature acknowledgement at the first frame position and a timeout at the last, in a SEND_MSG
and a relay. -/
theorem witness_FailedByteDoesNotEndTheAttempt :
    ∀ f ∈ [FrameSource.tx, FrameSource.frame],
      (let m : MsgSendAct := ⟨f, 1, false, 0, .byte ⟨0x00, .clockHigh 7⟩⟩
       let s := sending f m false 0
       s.now.rst = false ∧ s.point = msgSendPoint f m ∧ m.pt = .byte ⟨0x00, .clockHigh 7⟩ ∧
        s.build.tUnit ≤ s.cnt + 1 ∧ s.ai = false ∧ m.p + 1 < s.frameCount m.src) ∧
      (let m : MsgSendAct := ⟨f, 1, false, 2, .byte ⟨0x31, .ackWait⟩⟩
       let s := sending f m true 15
       s.now.rst = false ∧ s.point = msgSendPoint f m ∧ m.pt = .byte ⟨0x31, .ackWait⟩ ∧
        s.build.ackTimeout ≤ s.cnt + 1 ∧ s.ai = true ∧ s.frameCount m.src ≤ m.p + 1) := by decide

/-- A node that has the waits of this cycle behind it, with these synchronised levels. -/
def waited (p : Point) (ci ai : Level) : State :=
  { running p [] with
    clkSync := [true, ci], ackSync := [true, ai], cnt := (node []).build.edgeTimeout }

/-- One failure of each kind, at its frame position, and cycles without one: an acknowledged byte, a
byte completed in the last cycle of its wait, a settle delay. -/
theorem witness_EachFailureIsRecordedWhereItOccurs :
    (∀ p ∈ [(Point.sendByte ⟨0x48, .clockHigh 7⟩, (0x30 : Byte), (0xFF : Byte)),
        (.recvByte ⟨0, .fall 2⟩, 0x12, 0xFF),
        (.sendMsg ⟨.tx, 1, false, 2, .byte ⟨0x31, .clockHigh 7⟩⟩, 0x30, 0x02),
        (.receive (.relay ⟨.frame, 1, false, 300, .byte ⟨0x48, .clockHigh 7⟩⟩), 0x30, 0xFE),
        (.receive (.length ⟨0, .fall 0⟩), 0x10, 0x00),
        (.receive (.recipient ⟨0, .fall 7⟩), 0x17, 0x01),
        (.receive (.sender ⟨0, .ackRequest⟩), 0x20, 0x02),
        (.receive (.drain 0 ⟨0, .ackFall⟩), 0x22, 0x03),
        (.receive (.payload 252 ⟨0, .ackFall⟩), 0x22, 0xFE)],
      (waited p.1 true false).now.rst = false ∧ answers (waited p.1 true false) = true ∧
        (waited p.1 true false).point.failure (waited p.1 true false) = some p.2) ∧
    (∀ p ∈ [Point.sendByte ⟨0x48, .ackPulse⟩, .recvByte ⟨0, .ackFall⟩,
        .receive (.payload 1 ⟨0, .ackFall⟩), .receive .settle],
      (waited p false true).now.rst = false ∧ answers (waited p false true) = true ∧
        (waited p false true).point.failure (waited p false true) = none) := by decide

/-- Each byte of a reception, timed out and complete. -/
theorem witness_ReceivedByteIsUsedAsItStands :
    ∀ q ∈ [((MsgReceivePt.length ⟨0x01, .ackFall⟩, 0) : MsgReceivePt × Nat),
        (.recipient ⟨0x31, .ackFall⟩, 1), (.sender ⟨0x32, .ackFall⟩, 2),
        (.drain 0 ⟨0x48, .ackFall⟩, 3), (.payload 0 ⟨0x48, .ackFall⟩, 3),
        (.payload 252 ⟨0x48, .ackFall⟩, 255)],
      q.1.byte?.map (·.2) = some q.2 ∧
      (∀ a, q.1.byte? = some (a, q.2) → ∀ ci,
        (waited (.receive q.1) ci true).now.rst = false ∧
        (waited (.receive q.1) ci true).point = .receive q.1 ∧
        (a.pt.failure (waited (.receive q.1) ci true) ≠ none ∨
          (a.pt = .ackFall ∧ (waited (.receive q.1) ci true).ci = false)) ∧
        (waited (.receive q.1) ci true).framePay.wf = true) := by
  intro q hq
  simp only [List.mem_cons, List.not_mem_nil, or_false] at hq
  rcases hq with rfl | rfl | rfl | rfl | rfl | rfl <;>
    refine ⟨rfl, fun a ha ci => ?_⟩ <;> cases ha <;> cases ci <;> decide

/-- One attempt for each clause, in a SEND_MSG and a relay. -/
theorem witness_AttemptEndsOrIsRetried :
    ∀ f ∈ [FrameSource.tx, FrameSource.frame],
      ∀ m ∈ [(⟨f, 1, false, 2, .stop .data⟩ : MsgSendAct), ⟨f, 3, true, 2, .stop .data⟩,
          ⟨f, 2, true, 2, .stop .data⟩],
        (sending f m true 0).now.rst = false ∧ (sending f m true 0).point = msgSendPoint f m ∧
        m.pt = .stop .data ∧ (sending f m true 0).build.tDelay ≤ (sending f m true 0).cnt + 1 := by
  decide

/-! ### Messages on the inbound lines -/

/-- A frame of node '1' that comes back to it: length 1, recipient '2', sender '1'. -/
theorem witness_StaleEchoIsAborted :
    let s := hearing short [0x01, 0x32, 0x31]
    s.starts .msgReceive ∧ s.syncsOk ∧ 1 ≤ s.build.edgeTimeout ∧
      s.received 3 = ([0x01, 0x32, 0x31], 62) ∧ 0x31 = s.build.nodeId ∧ 0x32 ≠ s.build.nodeId ∧
      s.noReset 62 := by decide

/-- A message of two bytes, at a node whose buffers hold one: not drained, and drained. -/
theorem witness_OversizeIsDiscarded :
    (let s := hearing short [0x02, 0x32, 0x33]
     s.starts .msgReceive ∧ s.syncsOk ∧ s.build.wf = true ∧
      s.received 3 = ([0x02, 0x32, 0x33], 62) ∧
      ¬(0x33 = s.build.nodeId ∧ 0x32 ≠ s.build.nodeId) ∧ s.build.maxLen < (0x02#8).toNat ∧
      62 = (if s.drainOversize = true then (s.received (3 + (0x02#8).toNat)).2 else 62) ∧
      s.noReset (1 + (62 - 1 + 2 * s.build.tDelay + s.build.tSettle)) ∧
      ∀ i ∈ s.inputs.take (1 + (62 - 1 + 2 * s.build.tDelay + s.build.tSettle)),
        (i.hSel && i.hWe) = false) ∧
    (let s : State := { hearing short [0x02, 0x32, 0x33, 0x48, 0x49] with config := 0x07 }
     s.starts .msgReceive ∧ s.syncsOk ∧ s.build.wf = true ∧
      s.received 3 = ([0x02, 0x32, 0x33], 59) ∧
      ¬(0x33 = s.build.nodeId ∧ 0x32 ≠ s.build.nodeId) ∧ s.build.maxLen < (0x02#8).toNat ∧
      100 = (if s.drainOversize = true then (s.received (3 + (0x02#8).toNat)).2 else 59) ∧
      s.noReset (1 + (100 - 1 + 2 * s.build.tDelay + s.build.tSettle)) ∧
      ∀ i ∈ s.inputs.take (1 + (100 - 1 + 2 * s.build.tDelay + s.build.tSettle)),
        (i.hSel && i.hWe) = false) := by decide

/-- The payload "H" for node '1'. -/
theorem witness_MessageForThisNodeIsDelivered :
    let s := hearing short [0x01, 0x31, 0x32, 0x48]
    s.starts .msgReceive ∧ s.Inv ∧
      s.received (3 + (0x01#8).toNat) = (0x01 :: s.build.nodeId :: 0x32 :: [0x48], 81) ∧
      (0x01#8).toNat ≤ s.build.maxLen ∧
      s.noReset (1 + (81 - 1 + 2 * s.build.tDelay + s.build.tSettle)) :=
  ⟨by decide, by constructor <;> first | exact trivial | decide, by decide, by decide, by decide⟩

/-- An empty message from node '3' to node '2'. -/
theorem witness_EmptyMessageIsDropped :
    let s := hearing short [0x00, 0x32, 0x33]
    s.starts .msgReceive ∧ s.syncsOk ∧ s.build.wf = true ∧
      s.received 3 = ([0, 0x32, 0x33], 62) ∧ 0x32 ≠ s.build.nodeId ∧ 0x33 ≠ s.build.nodeId ∧
      s.noReset (1 + (62 - 1 + 2 * s.build.tDelay + s.build.tSettle)) := by decide

/-- The payload "H" from node '3' to node '2', with and without the bracket. -/
theorem witness_MessageForAnotherNodeIsRelayed :
    ∀ c ∈ [(0x05 : Byte), 0x01],
      let s : State := { hearing short [0x01, 0x32, 0x33, 0x48] with config := c }
      s.starts .msgReceive ∧ s.Inv ∧
        s.received (3 + (0x01#8).toNat) = (0x01 :: 0x32 :: 0x33 :: [0x48], 81) ∧
        0x32 ≠ s.build.nodeId ∧ 0x33 ≠ s.build.nodeId ∧ 0 < (0x01#8).toNat ∧
        (0x01#8).toNat ≤ s.build.maxLen ∧
        s.noReset (1 + (81 - 1 + 2 * s.build.tDelay + s.build.tSettle +
          (if s.resync = true then s.build.tSettle else 0))) ∧
        ∀ i ∈ s.inputs.take (1 + (81 - 1 + 2 * s.build.tDelay + s.build.tSettle +
          (if s.resync = true then s.build.tSettle else 0))), (i.hSel && i.hWe) = false := by
  intro c hc
  simp only [List.mem_cons, List.not_mem_nil, or_false] at hc
  rcases hc with rfl | rfl <;>
    exact ⟨by decide, by constructor <;> first | exact trivial | decide, by decide, by decide,
      by decide, by decide, by decide, by decide, by decide⟩

/-- A relay that succeeded and one that failed at the ceiling, each with both settings of RESYNC. -/
theorem witness_RelayEndsWithMsgRelayed :
    ∀ c ∈ [(0x05 : Byte), 0x01],
      ∀ m ∈ [(⟨.frame, 1, false, 3, .stop .data⟩ : MsgSendAct), ⟨.frame, 3, true, 3, .stop .data⟩],
        let s : State := { running (.receive (.relay m)) [] with config := c }
        s.point = .receive (.relay m) ∧ m.pt = .stop .data ∧ s.build.tDelay ≤ s.cnt + 1 ∧
          (m.fail = false ∨ m.attempt = s.build.retryMax) ∧ 1 ≤ s.build.tSettle ∧
          s.noReset (1 + s.build.tSettle) := by decide

/-! ### Frames -/

/-- Each of the four operations. -/
theorem witness_FrameOfPhysicalCommands :
    (∀ p ∈ [(0x0#4, Instr.nop), (0x2#4, .phyStart), (0x3#4, .phyStop), (0x6#4, .linesIdle)],
      (pending p.1 []).fetch = some (.instr p.2)) ∧
    (∃ t, exec .nop (pending 0x0 []) = .next t) ∧ (∃ t, exec .phyStart (pending 0x2 []) = .next t) ∧
    (∃ t, exec .phyStop (pending 0x3 []) = .next t) ∧
    ∃ t, exec .linesIdle (pending 0x6 []) = .next t :=
  ⟨by decide, ⟨_, rfl⟩, ⟨_, rfl⟩, ⟨_, rfl⟩, _, rfl⟩

/-- The dispatch of each; and a cycle in its middle and one that completes it. -/
theorem witness_FrameOfByteAndMessageCommands :
    (∀ p ∈ [(0x4#4, Instr.sendByte), (0x5#4, .recvByte), (0x1#4, .sendMsg)],
      (pending p.1 []).fetch = some (.instr p.2)) ∧
    (∃ t, exec .sendByte (pending 0x4 []) = .next t ∧ t.point ≠ .idle) ∧
    (∃ t, exec .recvByte (pending 0x5 []) = .next t ∧ t.point ≠ .idle) ∧
    (∃ t, exec .sendMsg (pending 0x1 []) = .next t ∧ t.point ≠ .idle) ∧
    (∃ t, exec .sendByte (waited (.sendByte ⟨0, .ackPulse⟩) true true) = .next t ∧
      t.point = .idle) ∧
    (∃ t, exec .recvByte (waited (.recvByte ⟨0, .fall 0⟩) true true) = .next t ∧ t.point = .idle) ∧
    ∃ t, exec .sendMsg (waited (.sendMsg ⟨.tx, 1, false, 2, .stop .data⟩) true true) = .next t ∧
      t.point = .idle :=
  ⟨by decide, ⟨_, rfl, by decide⟩, ⟨_, rfl, by decide⟩, ⟨_, rfl, by decide⟩, ⟨_, rfl, by decide⟩,
    ⟨_, rfl, by decide⟩, _, rfl, by decide⟩

/-- In a reception, in its relay, and in a payload byte; and a cycle of each clause about the lines:
from a byte to the next, in the relay, and at the end of the settle delay. -/
theorem witness_FrameOfMessageReception :
    (∀ q ∈ [MsgReceivePt.settle, .relay ⟨.frame, 1, false, 0, .start .low⟩,
        .payload 1 ⟨0, .ackFall⟩],
      (running (.receive q) []).fetch = some (.instr .msgReceive)) ∧
    (∀ q, ∃ t, exec .msgReceive (running (.receive q) []) = .next t) ∧
    ((∀ a, (running (.receive .settle) []).point ≠ .receive (.length a)) ∧
      (∀ a, (running (.receive .settle) []).point ≠ .receive (.recipient a)) ∧
      (∀ a, (running (.receive .settle) []).point ≠ .receive (.sender a)) ∧
      ∀ k a, (running (.receive .settle) []).point ≠ .receive (.payload k a)) ∧
    (running (.receive (.payload 1 ⟨0, .ackFall⟩)) []).point =
      .receive (.payload 1 ⟨0, .ackFall⟩) ∧ 0 ≠ 1 ∧
    (next (waited (.receive (.length ⟨0, .ackFall⟩)) false true)).point.receiving? ≠ none ∧
    (∀ m ∈ [(⟨.frame, 1, false, 0, .start .low⟩ : MsgSendAct),
        ⟨.frame, 1, false, 0, .byte ⟨0, .ackPulse⟩⟩, ⟨.frame, 1, true, 2, .stop .data⟩],
      (waited (.receive (.relay m)) true true).point.receiving? = none ∧
        (next (waited (.receive (.relay m)) true true)).point.inSend = true) ∧
    (next (waited (.receive .settle) true true)).point = .idle :=
  ⟨by decide, fun _ => ⟨_, rfl⟩, ⟨fun _ => nofun, fun _ => nofun, fun _ => nofun,
    fun _ _ => nofun⟩, rfl, by decide, by decide, by decide, by decide⟩

/-- A delivery, and a cycle without one. -/
theorem witness_RxRegistersChangeOnlyAtADelivery :
    (let s : State := { running (.receive .settle) [] with
       frameDest := 0x31, frameLen := 1, frameSrc := 0x32, framePay := [(0, 0x48)], cnt := 1 }
     s.now.rst = false ∧ s.rxStore.wf = true ∧ ∃ t, step s = .next t ∧ t.rxLen = 1) ∧
    ((node []).now.rst = false ∧ (node []).rxStore.wf = true ∧ ∃ t, step (node []) = .next t) :=
  ⟨⟨by decide, by decide, _, rfl, by decide⟩, by decide, by decide, _, rfl⟩

/-! ### Invariants, bounds and rings -/

/-- A state with the invariant in the middle of a relay. -/
theorem relaying_inv :
    ({ running (.receive (.relay ⟨.frame, 2, true, 3, .byte ⟨0x48, .ackWait⟩⟩)) [] with
      clkOut := false, rxAct := true, txAct := true, frameLen := 1, frameDest := 0x32,
      frameSrc := 0x33, framePay := [(0, 0x48)], cnt := 7 } : State).Inv := by
  constructor <;> first
    | decide
    | exact ⟨⟨by decide, by decide, by decide, by decide⟩, rfl, by decide, by decide, by decide,
        by decide⟩

theorem witness_StepKeepsTheInvariant : ∃ s t : State, s.Inv ∧ step s = .next t :=
  ⟨_, _, relaying_inv, rfl⟩

theorem witness_ResetSatisfiesTheInvariant : (Build.tv 0x46).wf = true := by decide

theorem witness_StepKeepsTheWaveformLevels :
    let s : State := { running (.sendByte ⟨0xA5, .dataLow 3⟩) [] with
      clkOut := false, datOut := false }
    s.linesOk ∧ ∃ t, step s = .next t := ⟨⟨rfl, by decide⟩, _, rfl⟩

theorem witness_DataChangesOnlyWithTheClockLow :
    let s : State := { running (.sendByte ⟨0x00, .clockLow 0⟩) [] with clkOut := false }
    s.linesOk ∧ s.now.rst = false ∧ s.point.sending? = some ⟨0x00, .clockLow 0⟩ ∧
      ∃ t, step s = .next t ∧ t.datOut ≠ s.datOut :=
  ⟨⟨rfl, fun h => absurd h (by decide)⟩, rfl, rfl, _, rfl, by decide⟩

theorem witness_StepKeepsThePartialByte :
    let s := running (.recvByte ⟨0b00001010, .rise 3⟩) []
    (∀ a, s.point.receiving? = some a → a.accOk) ∧
      ∃ t, step s = .next t ∧ t.point.receiving? = some ⟨0b00010110, .fall 4⟩ := by
  refine ⟨fun a h => ?_, _, rfl, by decide⟩
  cases h
  exact ⟨by decide, by decide⟩

theorem witness_SynchroniserDelay :
    (node [pins false true]).syncsOk ∧ (node [pins false true]).noReset 2 ∧
      ∃ t, run 2 (node [pins false true]) = .next t := ⟨by decide, by decide, _, rfl⟩

theorem witness_RelaySendsTheReceivedFrame :
    ∃ (s u : State) (m m' : MsgSendAct) (a : SendByteAct), s.Inv ∧ s.noReset 1 ∧
      s.point = .receive (.relay m) ∧
      (∀ i, i ≤ 1 → ∃ w, run i s = .next w ∧ w.point.inSend = true) ∧
      run 1 s = .next u ∧ u.point = .receive (.relay m') ∧ m'.pt = .byte a := by
  refine ⟨_, _, _, _, _, relaying_inv, by decide, rfl, fun i hi => ?_, rfl, rfl, rfl⟩
  interval_cases i <;> exact ⟨_, rfl, rfl⟩

theorem witness_BlockAlwaysReturnsToIdle : ∃ s : State, s.Inv ∧ s.point ≠ .idle ∧
    s.noReset (max (s.build.msgReceiveMax 255) s.build.relayMax) := by
  refine ⟨_, relaying_inv, by decide, fun x h => ?_⟩
  simp [running, node, State.resetOf] at h

/-- Node '1' with a command pending has the invariant. -/
theorem pending_inv : ∀ op ∈ [0x0#4, 0x1#4, 0x2#4, 0x3#4, 0x4#4, 0x5#4, 0x6#4],
    (pending op []).Inv := by
  intro op h
  simp only [List.mem_cons, List.not_mem_nil, or_false] at h
  rcases h with rfl | rfl | rfl | rfl | rfl | rfl | rfl <;>
    (constructor <;> first | exact trivial | decide)

/-- No reset and no write comes in the cycles of a state without inputs. -/
theorem quiet_inputs {s : State} (h : s.inputs = []) (n : Nat) :
    s.noReset n ∧ ∀ x ∈ s.inputs.take n, (x.hSel && x.hWe) = false := by
  constructor <;> intro x hx <;> simp [h] at hx

/-- Every operation; no reset and no write comes in any of the `1 + n` cycles of its bound. -/
theorem witness_OperationsKeepTheirBounds :
    (∀ op ∈ [0x0#4, 0x1#4, 0x2#4, 0x3#4, 0x4#4, 0x5#4, 0x6#4], (pending op []).Inv) ∧
    (∀ p ∈ [(0x0#4, Instr.nop), (0x1#4, .sendMsg), (0x2#4, .phyStart), (0x3#4, .phyStop),
        (0x4#4, .sendByte), (0x5#4, .recvByte), (0x6#4, .linesIdle)],
      (pending p.1 []).starts p.2) ∧
    (∀ (op : BitVec 4) (n : Nat), (pending op []).noReset (1 + n) ∧
      ∀ x ∈ (pending op []).inputs.take (1 + n), (x.hSel && x.hWe) = false) ∧
    (hearing short []).Inv ∧ (hearing short []).starts .msgReceive ∧
    ∀ n, (hearing short []).noReset (1 + n) ∧
      ∀ x ∈ (hearing short []).inputs.take (1 + n), (x.hSel && x.hWe) = false :=
  ⟨pending_inv, by decide, fun _ n => quiet_inputs rfl (1 + n),
    by constructor <;> first | exact trivial | decide, by decide,
    fun n => quiet_inputs rfl (1 + n)⟩

/-- A node that is being reset and one whose host writes an illegal command. -/
theorem witness_RingAtRestStaysAtRest :
    ∀ s ∈ (Ring.closed [node [resetCycle], node [hostWrites 0x001 0x07]]).nodes,
      s.atRest ∧ ∀ d, s.writes 0x001 d →
        d.extractLsb' 4 4 ≠ 0#4 ∨ 7 ≤ (d.extractLsb' 0 4).toNat ∨
          (d.extractLsb' 0 4 = 1#4 ∧ s.build.maxLen < s.txLen.toNat) := by
  intro s hs
  simp only [Ring.closed, List.mem_cons, List.not_mem_nil, or_false] at hs
  rcases hs with rfl | rfl
  · refine ⟨⟨rfl, rfl, by decide, rfl, rfl, rfl, rfl⟩, fun d h => ?_⟩
    cases h.1
  · refine ⟨⟨rfl, rfl, by decide, rfl, rfl, rfl, rfl⟩, fun d h => ?_⟩
    obtain rfl : (0x07 : Byte) = d := h.2.2.2.2
    decide

/-- The ends of both buffers. -/
theorem witness_RegistersStandAtTheirAddresses : (0 : Nat) < 256 ∧ (255 : Nat) < 256 := by decide

theorem witness_AdjacentNodesTransferAByte :
    (Build.tv 0x31).wf = true ∧ (Build.tv 0x32).wf = true ∧
    (Build.tv 0x32).syncStages = (Build.tv 0x31).syncStages ∧
    2 * (Build.tv 0x31).syncStages + 2 ≤ (Build.tv 0x31).ackTimeout ∧
    2 * (Build.tv 0x31).syncStages + 2 ≤ (Build.tv 0x32).edgeTimeout ∧
    (Build.tv 0x31).tUnit + 1 ≤ (Build.tv 0x32).edgeTimeout := by decide

end Sys2Proof.Tests
end

/-! ## The main loop (R13, R89) -/

namespace Sys2Proof.Proofs
open Sys2Proof.Machine

/-- The branch of `step` in which an operation runs: no reset, and the fetch gives the operation. It
serves a running operation and one that starts at `IDLE_POLL` alike. -/
theorem step_of_fetch {s : State} {i : Instr} (hrst : s.now.rst = false)
    (hfetch : s.fetch = some (.instr i)) : step s = exec i s := by
  have noReset : ¬ s.now.rst = true := by simp [hrst]
  rw [step, if_neg noReset, hfetch]

/-- Settles O3: `exec` stands unchanged in the branch of `step` that an operation takes. -/
theorem stepRunsTheFetchedOperation : Obligations.StepRunsTheFetchedOperation := by
  intro s i hrst hfetch
  exact step_of_fetch hrst hfetch

end Sys2Proof.Proofs

/-! ## The cycles of the running operation

What one cycle of a running operation can do is said once: `Cycle` lists it by control point, and
`resume_cycle` ties it to `State.resume`. The failure that a cycle meets is recorded first
(`recordFailure`), so `Cycle` itself speaks of the rest. The frames, the events, the failure points
and the invariant below are read off that list. -/

namespace Sys2Proof.Proofs
open Sys2Proof.Machine Sys2Proof.Laws

/-- The failure that a cycle meets is recorded, if it meets one: `f` is its step code and DIAG_POS
(R141). -/
def recordFailure (w : State) : Option (Byte × Byte) → State
  | none => w
  | some (code, pos) =>
    State.raiseFailureEvents
      { w with diagLast := code, diagPos := pos, diagCount := incSat w.diagCount } code

/-- Everything that recording a failure can write. -/
theorem recordFailure_frame (w : State) (f : Option (Byte × Byte)) :
    ∃ e0 e1 code pos count, recordFailure w f = { w with
      event0 := e0, event1 := e1, diagLast := code, diagPos := pos, diagCount := count } := by
  rcases f with - | ⟨code, pos⟩
  · exact ⟨_, _, _, _, _, rfl⟩
  · simp only [recordFailure, State.raiseFailureEvents]
    split_ifs <;> exact ⟨_, _, _, _, _, rfl⟩

/-! ### The micro-programs of the lines -/

section MicroPrograms
variable (t w : State)

theorem goPhyStart_cases (q : PhyStartPt) (wrap : PhyStartPt → Point) (ret : State → State) :
    (t.cnt + 1 < t.build.tDelay ∧ t.goPhyStart w q wrap ret = t.tick w) ∨
    (q = .high ∧ t.goPhyStart w q wrap ret = State.enter { w with datOut := false } (wrap .low)) ∨
    (q = .low ∧ t.goPhyStart w q wrap ret = ret w) := by
  cases q with
  | high =>
    rcases delay_cases t w t.build.tDelay
        (fun w => State.enter { w with datOut := false } (wrap .low)) with ⟨hlt, e⟩ | ⟨-, e⟩
    · exact .inl ⟨hlt, e⟩
    · exact .inr (.inl ⟨rfl, e⟩)
  | low =>
    rcases delay_cases t w t.build.tDelay ret with ⟨hlt, e⟩ | ⟨-, e⟩
    · exact .inl ⟨hlt, e⟩
    · exact .inr (.inr ⟨rfl, e⟩)

theorem goPhyStop_cases (q : PhyStopPt) (wrap : PhyStopPt → Point) (ret : State → State) :
    (t.cnt + 1 < t.build.tDelay ∧ t.goPhyStop w q wrap ret = t.tick w) ∨
    (q = .clock ∧ t.goPhyStop w q wrap ret = State.enter { w with datOut := true } (wrap .data)) ∨
    (q = .data ∧ t.goPhyStop w q wrap ret = ret w) := by
  cases q with
  | clock =>
    rcases delay_cases t w t.build.tDelay
        (fun w => State.enter { w with datOut := true } (wrap .data)) with ⟨hlt, e⟩ | ⟨-, e⟩
    · exact .inl ⟨hlt, e⟩
    · exact .inr (.inl ⟨rfl, e⟩)
  | data =>
    rcases delay_cases t w t.build.tDelay ret with ⟨hlt, e⟩ | ⟨-, e⟩
    · exact .inl ⟨hlt, e⟩
    · exact .inr (.inr ⟨rfl, e⟩)

/-- After a bit cell: the next clock fall, or after the last cell the premature acknowledgement. -/
theorem afterCell_cases (v : Byte) (j : Fin 8) (pos : BytePos) (wrap : SendByteAct → Point)
    (ret : Bool → State → State) :
    ((j ≠ 7 ∨ t.ai = true) ∧ ∃ pt, t.afterCell w v j pos wrap ret =
      State.enter { w with clkOut := false } (wrap ⟨v, pt⟩)) ∨
    (j = 7 ∧ t.ai = false ∧ t.afterCell w v j pos wrap ret =
      ret false (w.raiseFailure 0x30 pos)) := by
  unfold State.afterCell
  split_ifs with hj hai
  · exact .inl ⟨.inl (by omega), _, rfl⟩
  · exact .inr ⟨by omega, hai, rfl⟩
  · exact .inl ⟨.inr (by simpa using hai), _, rfl⟩

/-- Everything a cycle of `SendByte` can do; it returns failed exactly in the cycle of a failure. -/
theorem goSendByte_cases (a : SendByteAct) (pos : BytePos) (wrap : SendByteAct → Point)
    (ret : Bool → State → State) :
    (t.cnt + 1 < a.pt.limit t.build ∧ a.pt.failure t = none ∧
      t.goSendByte w a pos wrap ret = t.tick w) ∨
    (∃ clk dat pt, a.pt.failure t = none ∧ t.goSendByte w a pos wrap ret =
      State.enter { w with clkOut := clk, datOut := dat } (wrap ⟨a.v, pt⟩)) ∨
    t.goSendByte w a pos wrap ret =
      ret (a.pt.failure t).isNone
        (recordFailure w ((a.pt.failure t).map fun c => (c, pos.code))) := by
  obtain ⟨v, pt⟩ := a
  cases pt with
  | clockLow j =>
    rcases delay_cases t w 1
        (fun w => State.enter { w with datOut := cellBit v j } (wrap ⟨v, .dataLow j⟩))
      with ⟨hlt, e⟩ | ⟨-, e⟩
    · exact .inl ⟨hlt, rfl, e⟩
    · exact .inr (.inl ⟨_, _, _, rfl, e⟩)
  | dataLow j =>
    rcases delay_cases t w t.build.tUnit
        (fun w => State.enter { w with clkOut := true } (wrap ⟨v, .clockHigh j⟩))
      with ⟨hlt, e⟩ | ⟨-, e⟩
    · exact .inl ⟨hlt, rfl, e⟩
    · exact .inr (.inl ⟨_, _, _, rfl, e⟩)
  | clockHigh j =>
    rcases delay_cases t w t.build.tUnit (fun w => t.afterCell w v j pos wrap ret)
      with ⟨hlt, e⟩ | ⟨hle, e⟩
    · exact .inl ⟨hlt, if_neg (by omega), e⟩
    · rcases afterCell_cases t w v j pos wrap ret with ⟨hno, pt, e'⟩ | ⟨hj, hai, e'⟩
      · refine .inr (.inl ⟨_, _, pt, if_neg fun hf => ?_, e.trans e'⟩)
        obtain ⟨hj, -, hai⟩ := hf
        simp [hj, hai] at hno
      · have hf : SendBytePt.failure t (.clockHigh j) = some 0x30 := if_pos ⟨hj, hle, hai⟩
        exact .inr (.inr (by simp only [hf]; exact e.trans e'))
  | ackWait =>
    rcases wait_cases t w (!t.ai) t.build.ackTimeout (fun ok w =>
        if ok then State.enter { w with clkOut := true } (wrap ⟨v, .ackPulse⟩)
        else ret false (w.raiseFailure 0x31 pos)) with ⟨hc, e⟩ | ⟨hc, hlt, e⟩ | ⟨hc, hle, e⟩
    · exact .inr (.inl ⟨_, _, _, if_neg (by simpa using fun _ => hc), e⟩)
    · exact .inl ⟨hlt, if_neg (by omega), e⟩
    · have hf : SendBytePt.failure t .ackWait = some 0x31 := if_pos ⟨hle, by simpa using hc⟩
      exact .inr (.inr (by simp only [hf]; exact e))
  | ackPulse =>
    rcases delay_cases t w t.build.tUnit (ret true) with ⟨hlt, e⟩ | ⟨-, e⟩
    · exact .inl ⟨hlt, rfl, e⟩
    · exact .inr (.inr e)

/-- The timeout of a wait of `RecvByte`, in the terms of the wait (R86, R142). -/
theorem recvByte_failure_eq (q : RecvBytePt) :
    q.failure t =
      if t.build.edgeTimeout ≤ t.cnt + 1 ∧ q.met t.ci = false then some q.code else none := by
  cases q <;> cases h : t.ci <;> simp [RecvBytePt.failure, RecvBytePt.met, RecvBytePt.code, h]

/-- Everything a cycle of `RecvByte` can do; it returns failed exactly in the cycle of a failure. -/
theorem goRecvByte_cases (a : RecvByteAct) (pos : BytePos) (wrap : RecvByteAct → Point)
    (ret : Byte → Bool → State → State) :
    (t.cnt + 1 < t.build.edgeTimeout ∧ a.pt.failure t = none ∧
      t.goRecvByte w a pos wrap ret = t.tick w) ∨
    (∃ ack a', a.pt.failure t = none ∧ t.goRecvByte w a pos wrap ret =
      State.enter { w with ackOut := ack } (wrap a')) ∨
    ∃ ack, t.goRecvByte w a pos wrap ret = ret a.acc (a.pt.failure t).isNone
      { recordFailure w ((a.pt.failure t).map fun c => (c, pos.code)) with ackOut := ack } := by
  rcases wait_cases t w (a.pt.met t.ci) t.build.edgeTimeout (fun ok w =>
      if ok then t.afterEdge w a wrap ret else ret a.acc false (w.raiseFailure a.pt.code pos))
    with ⟨hc, e⟩ | ⟨hc, hlt, e⟩ | ⟨hc, hle, e⟩
  · have hf : a.pt.failure t = none := by rw [recvByte_failure_eq, if_neg (by simp [hc])]
    obtain ⟨acc, pt⟩ := a
    cases pt with
    | ackFall => exact .inr (.inr ⟨true, by rw [hf]; exact e⟩)
    | _ => exact .inr (.inl ⟨_, _, hf, e⟩)
  · exact .inl ⟨hlt, by rw [recvByte_failure_eq, if_neg (by omega)], e⟩
  · have hf : a.pt.failure t = some a.pt.code := by rw [recvByte_failure_eq, if_pos ⟨hle, hc⟩]
    exact .inr (.inr ⟨(w.raiseFailure a.pt.code pos).ackOut, by rw [hf]; exact e⟩)

/-! ### `MsgSend` -/

/-- The event at the end of a `MsgSend`, and what its return writes with it (R124). -/
def sendEnded (m : MsgSendAct) : State :=
  { State.raise { w with lastAttempts := BitVec.ofNat 8 m.attempt } m.endEvent with txAct := false }

/-- A byte begun at a frame position has the locals of its position (R123). -/
theorem beginFrameByte_ok {m : MsgSendAct} (h : m.ok t) (fail : Bool) {p : Nat}
    (hp : p < t.frameCount m.src) :
    MsgSendAct.ok t ⟨m.src, m.attempt, fail, p, .byte ⟨t.frameByte m.src p, .clockLow 0⟩⟩ :=
  ⟨h.1, h.2.1, hp, rfl⟩

theorem frameCount_pos (src : FrameSource) : 0 < t.frameCount src := by
  cases src <;> simp [State.frameCount]

/-- After a byte the attempt goes on: the next byte, or the stop condition (R124). -/
theorem afterByte_cases {m : MsgSendAct} {a : SendByteAct} (hm : m.pt = .byte a) (ok : Bool)
    (wrap : MsgSendAct → Point) :
    ∃ clk m', m'.src = m.src ∧ (m.ok t → m'.ok t) ∧
      t.afterByte w m ok wrap = State.enter { w with clkOut := clk } (wrap m') := by
  unfold State.afterByte
  split_ifs with hp
  · exact ⟨_, ⟨m.src, m.attempt, m.fail || !ok, m.p + 1, .byte ⟨_, .clockLow 0⟩⟩, rfl,
      fun h => beginFrameByte_ok t h _ hp, rfl⟩
  · refine ⟨_, ⟨m.src, m.attempt, m.fail || !ok, m.p, .stop .clock⟩, rfl, fun h => ?_, rfl⟩
    obtain ⟨h1, h2, h3⟩ := h
    rw [hm] at h3
    exact ⟨h1, h2, by have := h3.1; simp only; omega⟩

/-- After the stop condition: the end of the `MsgSend`, or the next attempt (R124, R125). -/
theorem afterStop_cases (m : MsgSendAct) (wrap : MsgSendAct → Point) (ret : Bool → State → State) :
    (∃ m', m'.src = m.src ∧ (m.ok t → m'.ok t) ∧
      t.afterStop w m wrap ret = State.enter { w with clkOut := true, datOut := true } (wrap m')) ∨
    t.afterStop w m wrap ret = ret (!m.fail) (sendEnded w m) := by
  unfold State.afterStop
  split_ifs with hf ha
  · exact .inr (by simp [State.endMsgSend, sendEnded, MsgSendAct.endEvent, hf])
  · exact .inr (by simp [State.endMsgSend, sendEnded, MsgSendAct.endEvent, hf])
  · refine .inl ⟨⟨m.src, m.attempt + 1, false, 0, .start .high⟩, rfl, fun h => ?_, rfl⟩
    have := h.2.1
    exact ⟨by simp only; omega, by simp only; omega, rfl, rfl⟩

/-- Everything a cycle of `MsgSend` can do. -/
theorem goMsgSend_cases (m : MsgSendAct) (wrap : MsgSendAct → Point) (ret : Bool → State → State) :
    (t.cnt + 1 < m.limit t.build ∧ m.failure t = none ∧ t.goMsgSend w m wrap ret = t.tick w) ∨
    (∃ clk dat m', m'.src = m.src ∧ (m.ok t → m'.ok t) ∧ t.goMsgSend w m wrap ret =
      State.enter { recordFailure w (m.failure t) with clkOut := clk, datOut := dat } (wrap m')) ∨
    (m.failure t = none ∧ t.goMsgSend w m wrap ret = ret (!m.fail) (sendEnded w m)) := by
  obtain ⟨src, attempt, fail, p, pt⟩ := m
  cases pt with
  | start q =>
    rcases goPhyStart_cases t w q (fun q => wrap ⟨src, attempt, fail, p, .start q⟩) (fun w =>
        t.beginFrameByte w ⟨src, attempt, fail, p, .start q⟩ false 0 wrap)
      with ⟨hlt, e⟩ | ⟨-, e⟩ | ⟨-, e⟩
    · exact .inl ⟨hlt, rfl, e⟩
    · exact .inr (.inl ⟨_, _, _, by exact rfl, by exact fun h => h, e⟩)
    · refine .inr (.inl ⟨_, _, ⟨src, attempt, false, 0, .byte _⟩, rfl, fun h => ?_, e⟩)
      exact beginFrameByte_ok t h _ (frameCount_pos t src)
  | byte a =>
    rcases goSendByte_cases t w a (.frame p) (fun a => wrap ⟨src, attempt, fail, p, .byte a⟩)
        (fun ok w => t.afterByte w ⟨src, attempt, fail, p, .byte a⟩ ok wrap)
      with ⟨hlt, hf, e⟩ | ⟨clk, dat, pt, hf, e⟩ | e
    · exact .inl ⟨hlt, congrArg (Option.map _) hf, e⟩
    · refine .inr (.inl ⟨clk, dat, ⟨src, attempt, fail, p, .byte ⟨a.v, pt⟩⟩, rfl, fun h => h, ?_⟩)
      simp only [MsgSendAct.failure, hf]
      exact e
    · obtain ⟨clk, m', hsrc, hok, e'⟩ := afterByte_cases t
        (recordFailure w ((a.pt.failure t).map fun c => (c, (BytePos.frame p).code)))
        (m := ⟨src, attempt, fail, p, .byte a⟩) rfl (a.pt.failure t).isNone wrap
      exact .inr (.inl ⟨clk, _, m', hsrc, hok, e.trans e'⟩)
  | stop q =>
    rcases goPhyStop_cases t w q (fun q => wrap ⟨src, attempt, fail, p, .stop q⟩) (fun w =>
        t.afterStop w ⟨src, attempt, fail, p, .stop q⟩ wrap ret)
      with ⟨hlt, e⟩ | ⟨-, e⟩ | ⟨-, e⟩
    · exact .inl ⟨hlt, rfl, e⟩
    · exact .inr (.inl ⟨_, _, _, by exact rfl, by exact fun h => h, e⟩)
    · rcases afterStop_cases t w ⟨src, attempt, fail, p, .stop q⟩ wrap ret
        with ⟨m', hsrc, hok, e'⟩ | e'
      · exact .inr (.inl ⟨_, _, m', hsrc, hok, e.trans e'⟩)
      · exact .inr (.inr ⟨rfl, e.trans e'⟩)

end MicroPrograms

/-! ### One cycle of a running operation -/

/-- `RecvByte` at its first wait (R114). -/
def firstWait : RecvByteAct := ⟨0, .fall 0⟩

/-- The same byte of a reception with its `RecvByte` at `a`. -/
def atByte (q : MsgReceivePt) (a : RecvByteAct) : MsgReceivePt :=
  match q with
  | .length _ => .length a
  | .recipient _ => .recipient a
  | .sender _ => .sender a
  | .drain k _ => .drain k a
  | .payload k _ => .payload k a
  | q => q

/-- What a cycle of the operation running at a control point can do, beside recording the failure
that it meets: `w` is the state after the clock edge with that failure recorded, and the third
argument the next state. A line that a cycle may drive either way has a free level here. -/
inductive Cycle (t w : State) : Point → State → Prop
  /-- The timed statement goes on. -/
  | tick {p} (hp : p ≠ .idle) (hcnt : t.cnt + 1 < p.limit t.build) : Cycle t w p (t.tick w)
  | phyStart (q q' dat) :
    Cycle t w (.phyStart q) (State.enter { w with datOut := dat } (.phyStart q'))
  | phyStartEnd (q) : Cycle t w (.phyStart q) (w.endCommand false)
  | phyStop (q q' dat) :
    Cycle t w (.phyStop q) (State.enter { w with datOut := dat } (.phyStop q'))
  | phyStopEnd (q) : Cycle t w (.phyStop q) (w.endCommand false)
  | sendByte (a pt clk dat) : Cycle t w (.sendByte a)
      (State.enter { w with clkOut := clk, datOut := dat } (.sendByte ⟨a.v, pt⟩))
  | sendByteEnd (a failed) : Cycle t w (.sendByte a) (w.endCommand failed)
  | recvByte (a a' ack) :
    Cycle t w (.recvByte a) (State.enter { w with ackOut := ack } (.recvByte a'))
  | recvByteEnd (a ack failed) :
    Cycle t w (.recvByte a) (State.endCommand { w with ackOut := ack, rxByte := a.acc } failed)
  | sendMsg (m m' : MsgSendAct) (clk dat) (hsrc : m'.src = m.src) (hok : m.ok t → m'.ok t) :
    Cycle t w (.sendMsg m) (State.enter { w with clkOut := clk, datOut := dat } (.sendMsg m'))
  | sendMsgEnd (m) : Cycle t w (.sendMsg m) ((sendEnded w m).endCommand m.fail)
  /-- A byte of a reception goes on to its next wait. -/
  | byteWait (q a pos a' ack) (hq : q.byte? = some (a, pos)) :
    Cycle t w (.receive q) (State.enter { w with ackOut := ack } (.receive (atByte q a')))
  | length (a) : Cycle t w (.receive (.length a))
      (State.enter { w with frameLen := a.acc, ackOut := true } (.receive (.recipient firstWait)))
  | recipient (a) : Cycle t w (.receive (.recipient a))
      (State.enter { w with frameDest := a.acc, ackOut := true } (.receive (.sender firstWait)))
  /-- The header is a stale echo (R130). -/
  | staleEcho (a) (hsrc : a.acc = w.build.nodeId) (hdest : w.frameDest ≠ w.build.nodeId) :
    Cycle t w (.receive (.sender a))
      (State.raise { w with frameSrc := a.acc } .staleEcho).finishReceive
  /-- The header of an oversize message whose payload is drained (R132). -/
  | oversizeDrain (a) (hns : ¬(a.acc = w.build.nodeId ∧ w.frameDest ≠ w.build.nodeId))
      (hlen : w.build.maxLen < w.frameLen.toNat) :
    Cycle t w (.receive (.sender a)) (State.enter
      { State.raise { w with frameSrc := a.acc } .oversize with ackOut := true }
      (.receive (.drain 0 firstWait)))
  /-- The header of an oversize message whose payload is not drained (R132). -/
  | oversizeStop (a ack) (hns : ¬(a.acc = w.build.nodeId ∧ w.frameDest ≠ w.build.nodeId))
      (hlen : w.build.maxLen < w.frameLen.toNat) :
    Cycle t w (.receive (.sender a)) (State.enter
      { State.raise { w with frameSrc := a.acc } .oversize with clkOut := true, ackOut := ack }
      (.receive (.oversizeStop .clock)))
  /-- The header of a message that fits and has a payload. -/
  | fits (a) (hns : ¬(a.acc = w.build.nodeId ∧ w.frameDest ≠ w.build.nodeId))
      (hlen : w.frameLen.toNat ≤ w.build.maxLen) (hpos : 0 < w.frameLen.toNat) :
    Cycle t w (.receive (.sender a))
      (State.enter { w with frameSrc := a.acc, ackOut := true } (.receive (.payload 0 firstWait)))
  /-- The header of a message without payload. -/
  | empty (a ack) (hns : ¬(a.acc = w.build.nodeId ∧ w.frameDest ≠ w.build.nodeId))
      (hlen : w.frameLen.toNat ≤ w.build.maxLen) :
    Cycle t w (.receive (.sender a))
      (State.enter { w with frameSrc := a.acc, clkOut := true, ackOut := ack }
        (.receive (.stop .clock)))
  | drainNext (k a) (hk : k + 1 < w.frameLen.toNat) : Cycle t w (.receive (.drain k a))
      (State.enter { w with ackOut := true } (.receive (.drain (k + 1) firstWait)))
  | drainEnd (k a ack) : Cycle t w (.receive (.drain k a))
      (State.enter { w with clkOut := true, ackOut := ack } (.receive (.oversizeStop .clock)))
  | payloadNext (k a) (hk : k + 1 < w.frameLen.toNat) : Cycle t w (.receive (.payload k a))
      (State.enter { w with framePay := w.framePay.write k a.acc, ackOut := true }
        (.receive (.payload (k + 1) firstWait)))
  | payloadEnd (k a ack) : Cycle t w (.receive (.payload k a))
      (State.enter { w with framePay := w.framePay.write k a.acc, clkOut := true, ackOut := ack }
        (.receive (.stop .clock)))
  /-- The stop condition of an oversize message, or the settle delay after it, begins. -/
  | oversizeNext (p q' dat) (hq : (∃ p', q' = .oversizeStop p') ∨ q' = .oversizeSettle) :
    Cycle t w (.receive (.oversizeStop p)) (State.enter { w with datOut := dat } (.receive q'))
  | oversizeEnd : Cycle t w (.receive .oversizeSettle) w.finishReceive
  /-- The stop condition after the payload, or the settle delay after it, begins. -/
  | stopNext (p q' dat) (hq : (∃ p', q' = .stop p') ∨ q' = .settle) :
    Cycle t w (.receive (.stop p)) (State.enter { w with datOut := dat } (.receive q'))
  | deliver (hdest : w.frameDest = w.build.nodeId) :
    Cycle t w (.receive .settle) (w.deliver.raise .msgDelivered).finishReceive
  | drop (hdest : w.frameDest ≠ w.build.nodeId) :
    Cycle t w (.receive .settle) (w.raise .msgDropped).finishReceive
  | bracket (hdest : w.frameDest ≠ w.build.nodeId) (hpos : 0 < w.frameLen.toNat) :
    Cycle t w (.receive .settle) (w.linesIdle.enter (.receive .relayBefore))
  /-- The relay begins, at the disposition or after the bracket before it. -/
  | relayStart (q) (hq : q = .relayBefore ∨
      q = .settle ∧ w.frameDest ≠ w.build.nodeId ∧ 0 < w.frameLen.toNat) :
    Cycle t w (.receive q) w.beginRelay
  | relay (m m' : MsgSendAct) (clk dat) (hsrc : m'.src = m.src) (hok : m.ok t → m'.ok t) :
    Cycle t w (.receive (.relay m))
      (State.enter { w with clkOut := clk, datOut := dat } (.receive (.relay m')))
  /-- The relay's `MsgSend` ends and the bracket after it begins. -/
  | relayBracket (m) : Cycle t w (.receive (.relay m))
      ((sendEnded w m).linesIdle.enter (.receive .relayAfter))
  | relayEnd (m) : Cycle t w (.receive (.relay m)) (sendEnded w m).endRelay
  | relayAfterEnd : Cycle t w (.receive .relayAfter) w.endRelay

theorem Cycle.of_eq {t w u v : State} {p : Point} (e : v = u) (h : Cycle t w p u) :
    Cycle t w p v := e ▸ h

/-! The compound updates of the segments in terms of the basic ones. -/

section Compound
variable (w : State)

@[simp] theorem endCommand_eq (failed : Bool) : w.endCommand failed = State.enter
    { State.raise { w with cmdResult := zext8 failed } .cmdDone with cmdAct := false } .idle := rfl

@[simp] theorem finishReceive_eq : w.finishReceive = w.linesIdle.endReceive := rfl

@[simp] theorem endRelay_eq : w.endRelay = (w.raise .msgRelayed).linesIdle.endReceive := rfl

@[simp] theorem beginRelay_eq : w.beginRelay =
    State.enter { w with txAct := true, clkOut := true, datOut := true }
      (.receive (.relay ⟨.frame, 1, false, 0, .start .high⟩)) := rfl

@[simp] theorem deliver_eq : w.deliver = State.linesIdle { w with
    rxLen := w.frameLen, rxDest := w.frameDest, rxSrc := w.frameSrc,
    rxStore := w.framePay.copy w.build.maxLen w.rxStore } := rfl

@[simp] theorem sendEnded_eq (m : MsgSendAct) : sendEnded w m =
    { State.raise { w with lastAttempts := BitVec.ofNat 8 m.attempt } m.endEvent with
      txAct := false } := rfl

@[simp] theorem startOf_nop (t : State) : startOf .nop t w = State.enter
    { State.raise { w with pendValid := false, cmdResult := 0 } .cmdDone with cmdAct := false }
    .idle := rfl

@[simp] theorem startOf_linesIdle (t : State) : startOf .linesIdle t w = State.enter
    { State.raise { w.linesIdle with pendValid := false, cmdResult := 0 } .cmdDone with
      cmdAct := false } .idle := rfl

@[simp] theorem startOf_phyStart (t : State) : startOf .phyStart t w = State.enter
    { w with pendValid := false, cmdAct := true, clkOut := true, datOut := true }
    (.phyStart .high) := rfl

@[simp] theorem startOf_phyStop (t : State) : startOf .phyStop t w = State.enter
    { w with pendValid := false, cmdAct := true, clkOut := true } (.phyStop .clock) := rfl

@[simp] theorem startOf_sendByte (t : State) : startOf .sendByte t w = State.enter
    { w with pendValid := false, cmdAct := true, clkOut := false }
    (.sendByte ⟨t.txByte, .clockLow 0⟩) := rfl

@[simp] theorem startOf_recvByte (t : State) : startOf .recvByte t w = State.enter
    { w with pendValid := false, cmdAct := true, ackOut := true } (.recvByte firstWait) := rfl

@[simp] theorem startOf_sendMsg (t : State) : startOf .sendMsg t w = State.enter
    { w with pendValid := false, cmdAct := true, txAct := true, clkOut := true, datOut := true }
    (.sendMsg ⟨.tx, 1, false, 0, .start .high⟩) := rfl

@[simp] theorem startOf_msgReceive (t : State) : startOf .msgReceive t w = State.enter
    { w.raise .startSeen with rxAct := true, ackOut := true } (.receive (.length firstWait)) := rfl

end Compound

section Segments
variable (t w : State)

theorem drainFrom_of_lt {k : Nat} (hk : k < w.frameLen.toNat) :
    w.drainFrom k = State.enter { w with ackOut := true } (.receive (.drain k firstWait)) :=
  if_pos hk

theorem drainFrom_of_not_lt {k : Nat} (hk : ¬k < w.frameLen.toNat) :
    w.drainFrom k = State.enter { w with clkOut := true } (.receive (.oversizeStop .clock)) :=
  if_neg hk

theorem payloadFrom_of_lt {k : Nat} (hk : k < w.frameLen.toNat) :
    w.payloadFrom k = State.enter { w with ackOut := true } (.receive (.payload k firstWait)) :=
  if_pos hk

theorem payloadFrom_of_not_lt {k : Nat} (hk : ¬k < w.frameLen.toNat) :
    w.payloadFrom k = State.enter { w with clkOut := true } (.receive (.stop .clock)) := if_neg hk

/-- What the validation of a header can do (R129, R130, R132); `ack` is the level that the return of
the sender byte left on ACK_OUT. -/
theorem validate_cycle (a : RecvByteAct) (ack : Level) :
    Cycle t w (.receive (.sender a)) (t.validate { w with ackOut := ack, frameSrc := a.acc }) := by
  unfold State.validate
  split_ifs with hstale hlen hdrain
  · exact .staleEcho a hstale.1 hstale.2
  · have hpos : 0 < w.frameLen.toNat := Nat.zero_lt_of_lt hlen
    exact .of_eq (drainFrom_of_lt _ hpos) (.oversizeDrain a hstale hlen)
  · exact .oversizeStop a ack hstale hlen
  · by_cases hpos : 0 < w.frameLen.toNat
    · exact .of_eq (payloadFrom_of_lt _ hpos) (.fits a hstale (not_lt.mp hlen) hpos)
    · exact .of_eq (payloadFrom_of_not_lt _ hpos) (.empty a ack hstale (not_lt.mp hlen))

/-- What follows the return of a byte of a reception, whose value is the accumulator (R129, R131).
-/
def afterReception (q : MsgReceivePt) (v : Byte) (w : State) : State :=
  match q with
  | .length _ => State.beginRecvByte { w with frameLen := v } fun a => .receive (.recipient a)
  | .recipient _ => State.beginRecvByte { w with frameDest := v } fun a => .receive (.sender a)
  | .sender _ => t.validate { w with frameSrc := v }
  | .drain k _ => w.drainFrom (k + 1)
  | .payload k _ => State.payloadFrom { w with framePay := w.framePay.write k v } (k + 1)
  | _ => w

/-- While a byte of a reception is received, its cycle is one of `RecvByte`. -/
theorem goMsgReceive_of_byte {q : MsgReceivePt} {a : RecvByteAct} {pos : Nat}
    (hq : q.byte? = some (a, pos)) :
    t.goMsgReceive w q = t.goRecvByte w a (.frame pos) (fun a => .receive (atByte q a))
      fun v _ w => afterReception t q v w := by
  cases q <;> cases hq <;> rfl

theorem afterReception_cycle {q : MsgReceivePt} {a : RecvByteAct} {pos : Nat}
    (hq : q.byte? = some (a, pos)) (ack : Level) :
    Cycle t w (.receive q) (afterReception t q a.acc { w with ackOut := ack }) := by
  cases q <;> cases hq
  case length => exact .length a
  case recipient => exact .recipient a
  case sender => exact validate_cycle t w a ack
  case drain k =>
    by_cases hk : k + 1 < w.frameLen.toNat
    · exact .of_eq (drainFrom_of_lt _ hk) (.drainNext k a hk)
    · exact .of_eq (drainFrom_of_not_lt _ hk) (.drainEnd k a ack)
  case payload k =>
    by_cases hk : k + 1 < w.frameLen.toNat
    · exact .of_eq (payloadFrom_of_lt _ hk) (.payloadNext k a hk)
    · exact .of_eq (payloadFrom_of_not_lt _ hk) (.payloadEnd k a ack)

/-- What the disposition of a received message can do (R129, R135). -/
theorem dispose_cycle : Cycle t w (.receive .settle) (t.dispose w) := by
  unfold State.dispose
  split_ifs with hdest hpos hresync
  · exact .deliver hdest
  · exact .bracket hdest hpos
  · exact .relayStart _ (.inr ⟨rfl, hdest, hpos⟩)
  · exact .drop hdest

theorem byteWait_limit {q : MsgReceivePt} {a : RecvByteAct} {pos : Nat}
    (hq : q.byte? = some (a, pos)) (b : Build) : q.limit b = b.edgeTimeout := by
  cases q <;> cases hq <;> rfl

/-- The failure of a byte of a reception is that of its `RecvByte` (R84, R142). -/
theorem failure_of_byte {q : MsgReceivePt} {a : RecvByteAct} {pos : Nat}
    (hq : q.byte? = some (a, pos)) :
    Point.failure t (.receive q) = (a.pt.failure t).map fun c => (c, framePos pos) := by
  cases q <;> cases hq <;> rfl

/-- The cycles of a reception in which no byte is received. -/
theorem goMsgReceive_cycle_of_no_byte {q : MsgReceivePt} (hq : q.byte? = none) :
    Cycle t (recordFailure w (Point.failure t (.receive q))) (.receive q) (t.goMsgReceive w q) := by
  cases q <;> cases hq
  case oversizeStop p =>
    rcases goPhyStop_cases t w p (fun p => .receive (.oversizeStop p))
        (fun w => w.enter (.receive .oversizeSettle)) with ⟨hlt, e⟩ | ⟨-, e⟩ | ⟨-, e⟩
    · exact .of_eq e (.tick nofun hlt)
    · exact .of_eq e (.oversizeNext p _ true (.inl ⟨_, rfl⟩))
    · exact .of_eq e (.oversizeNext p _ w.datOut (.inr rfl))
  case oversizeSettle =>
    rcases delay_cases t w t.build.tSettle State.finishReceive with ⟨hlt, e⟩ | ⟨-, e⟩
    · exact .of_eq e (.tick nofun hlt)
    · exact .of_eq e (.oversizeEnd)
  case stop p =>
    rcases goPhyStop_cases t w p (fun p => .receive (.stop p))
        (fun w => w.enter (.receive .settle)) with ⟨hlt, e⟩ | ⟨-, e⟩ | ⟨-, e⟩
    · exact .of_eq e (.tick nofun hlt)
    · exact .of_eq e (.stopNext p _ true (.inl ⟨_, rfl⟩))
    · exact .of_eq e (.stopNext p _ w.datOut (.inr rfl))
  case settle =>
    rcases delay_cases t w t.build.tSettle t.dispose with ⟨hlt, e⟩ | ⟨-, e⟩
    · exact .of_eq e (.tick nofun hlt)
    · exact .of_eq e (dispose_cycle t w)
  case relayBefore =>
    rcases delay_cases t w t.build.tSettle State.beginRelay with ⟨hlt, e⟩ | ⟨-, e⟩
    · exact .of_eq e (.tick nofun hlt)
    · exact .of_eq e (.relayStart _ (.inl rfl))
  case relay m =>
    rcases goMsgSend_cases t w m (fun m => .receive (.relay m)) (fun _ w => t.afterRelay w)
      with ⟨hlt, hf, e⟩ | ⟨clk, dat, m', hsrc, hok, e⟩ | ⟨hf, e⟩
    · simp only [Point.failure, hf]; exact .of_eq e (.tick nofun hlt)
    · exact .of_eq e (.relay m m' clk dat hsrc hok)
    · simp only [Point.failure, hf]
      by_cases hresync : t.resync = true
      · exact .of_eq (e.trans (if_pos hresync)) (.relayBracket m)
      · exact .of_eq (e.trans (if_neg hresync)) (.relayEnd m)
  case relayAfter =>
    rcases delay_cases t w t.build.tSettle State.endRelay with ⟨hlt, e⟩ | ⟨-, e⟩
    · exact .of_eq e (.tick nofun hlt)
    · exact .of_eq e (.relayAfterEnd)

theorem goMsgReceive_cycle (q : MsgReceivePt) :
    Cycle t (recordFailure w (Point.failure t (.receive q))) (.receive q) (t.goMsgReceive w q) := by
  cases hq : q.byte? with
  | some b =>
    obtain ⟨a, pos⟩ := b
    rw [goMsgReceive_of_byte t w hq, failure_of_byte t hq]
    rcases goRecvByte_cases t w a (.frame pos) (fun a => .receive (atByte q a))
        (fun v _ w => afterReception t q v w) with ⟨hlt, hf, e⟩ | ⟨ack, a', hf, e⟩ | ⟨ack, e⟩
    · rw [e, hf]
      exact .tick nofun (by simpa only [Point.limit, byteWait_limit hq] using hlt)
    · rw [e, hf]; exact .byteWait q a pos a' ack hq
    · rw [e]; exact afterReception_cycle t _ hq ack
  | none => exact goMsgReceive_cycle_of_no_byte t w hq

/-- Everything the cycle of a running operation can do: its failure is recorded first. -/
theorem resume_cycle (hp : t.point ≠ .idle) :
    Cycle t (recordFailure w (t.point.failure t)) t.point (t.resume w) := by
  unfold State.resume
  cases h : t.point with
  | idle => exact absurd h hp
  | phyStart q =>
    rcases goPhyStart_cases t w q .phyStart (fun w => w.endCommand false)
      with ⟨hlt, e⟩ | ⟨-, e⟩ | ⟨-, e⟩
    · exact .of_eq e (.tick nofun hlt)
    · exact .of_eq e (.phyStart q .low false)
    · exact .of_eq e (.phyStartEnd q)
  | phyStop q =>
    rcases goPhyStop_cases t w q .phyStop (fun w => w.endCommand false)
      with ⟨hlt, e⟩ | ⟨-, e⟩ | ⟨-, e⟩
    · exact .of_eq e (.tick nofun hlt)
    · exact .of_eq e (.phyStop q .data true)
    · exact .of_eq e (.phyStopEnd q)
  | sendByte a =>
    rcases goSendByte_cases t w a .alone .sendByte State.endSendByte
      with ⟨hlt, hf, e⟩ | ⟨clk, dat, pt, hf, e⟩ | e
    · simp only [Point.failure, hf]; exact .of_eq e (.tick nofun hlt)
    · simp only [Point.failure, hf]; exact .of_eq e (.sendByte a pt clk dat)
    · exact .of_eq e (.sendByteEnd a _)
  | recvByte a =>
    rcases goRecvByte_cases t w a .alone .recvByte State.endRecvByte
      with ⟨hlt, hf, e⟩ | ⟨ack, a', hf, e⟩ | ⟨ack, e⟩
    · simp only [Point.failure, hf]; exact .of_eq e (.tick nofun hlt)
    · simp only [Point.failure, hf]; exact .of_eq e (.recvByte a a' ack)
    · exact .of_eq e (.recvByteEnd a ack _)
  | sendMsg m =>
    rcases goMsgSend_cases t w m .sendMsg State.endSendMsg
      with ⟨hlt, hf, e⟩ | ⟨clk, dat, m', hsrc, hok, e⟩ | ⟨hf, e⟩
    · simp only [Point.failure, hf]; exact .of_eq e (.tick nofun hlt)
    · exact .of_eq e (.sendMsg m m' clk dat hsrc hok)
    · simp only [Point.failure, hf]
      simp only [State.endSendMsg, Bool.not_not] at e
      exact .of_eq e (.sendMsgEnd m)
  | receive q => exact goMsgReceive_cycle t w q

end Segments

/-! ### The cycles of `exec` and `step` -/

/-- The cycle of a fetched operation: it starts, or it is the running one. -/
theorem exec_cases {s t : State} {i : Instr} (hf : s.fetch = some (.instr i))
    (h : exec i s = .next t) :
    (s.point = .idle ∧ t = startOf i s s.edge) ∨
    (s.point ≠ .idle ∧ s.point.instr = some i ∧
      Cycle s (recordFailure s.edge (s.point.failure s)) s.point t) := by
  rw [exec_eq] at h
  injection h with h
  by_cases hp : s.point = .idle
  · exact .inl ⟨hp, by rw [← h, operate_of_idle _ hp]⟩
  · obtain ⟨j, hj, hfj⟩ := fetch_of_running hp
    rw [hf] at hfj
    cases hfj
    exact .inr ⟨hp, hj, by rw [← h, operate_of_running _ hp]; exact resume_cycle s s.edge hp⟩

/-- Everything a step without reset can do. -/
theorem step_cycle_cases {s t : State} (hr : s.now.rst = false) (h : step s = .next t) :
    (s.point ≠ .idle ∧ Cycle s (recordFailure s.edge (s.point.failure s)) s.point t) ∨
    (s.point = .idle ∧ t = s.edge) ∨
    (s.point = .idle ∧ ∃ i, s.poll = some (.instr i) ∧ t = startOf i s s.edge) := by
  rcases step_cases h with ⟨hr', -⟩ | ⟨-, hp, rfl⟩ | ⟨-, hp, -, rfl⟩ | ⟨-, hp, i, hi, rfl⟩
  · rw [hr] at hr'; cases hr'
  · exact .inl ⟨hp, resume_cycle s s.edge hp⟩
  · exact .inr (.inl ⟨hp, rfl⟩)
  · exact .inr (.inr ⟨hp, i, hi, rfl⟩)

/-! ### The events of a cycle -/

/-- From `w` to `u` exactly the events `es` are set. -/
def sets (w u : State) (es : List Event) : Prop :=
  ∀ e, u.flag e = (w.flag e || decide (e ∈ es))

theorem sets_none {w u : State} (h0 : u.event0 = w.event0) (h1 : u.event1 = w.event1) :
    sets w u [] := by
  intro e
  simp [State.flag, h0, h1]

/-- An update that writes the event registers as `raise e` does sets `e`, and no other event. -/
theorem sets_one {w u : State} (e : Event) (h0 : u.event0 = (w.raise e).event0)
    (h1 : u.event1 = (w.raise e).event1) : sets w u [e] := by
  intro e'
  have h : u.flag e' = (w.raise e).flag e' := by simp only [State.flag, h0, h1]
  simp only [h, raise_flag, List.mem_singleton]

theorem sets_trans {w v u : State} {es es' : List Event} (h : sets w v es) (h' : sets v u es') :
    sets w u (es ++ es') := by
  intro e
  rw [h' e, h e, Bool.or_assoc]
  simp

theorem sets_two {w u : State} (e e' : Event) (h0 : u.event0 = ((w.raise e).raise e').event0)
    (h1 : u.event1 = ((w.raise e).raise e').event1) : sets w u [e, e'] :=
  sets_trans (sets_one e rfl rfl) (sets_one e' h0 h1)

/-- The events of a failure, if there is one (R141). -/
def eventsOf : Option (Byte × Byte) → List Event
  | none => []
  | some f => failureEvents f.1

theorem failureEvents_eq (s : State) : s.failureEvents = eventsOf (s.point.failure s) := by
  unfold State.failureEvents eventsOf
  cases s.point.failure s <;> rfl

/-- A recorded failure is a failure point but for the byte in DIAG_POS. -/
theorem recordFailure_some (w : State) (code pos : Byte) :
    recordFailure w (some (code, pos)) = { w.raiseFailure code .alone with diagPos := pos } := by
  simp only [recordFailure, State.raiseFailure, State.raiseFailureEvents]
  split_ifs <;> rfl

/-- Recording a failure sets its events and no other (R141). -/
theorem recordFailure_sets (w : State) (f : Option (Byte × Byte)) :
    sets w (recordFailure w f) (eventsOf f) := by
  rcases f with - | ⟨code, pos⟩
  · exact sets_none rfl rfl
  · intro e
    rw [recordFailure_some]
    exact raiseFailure_flag w code .alone e

/-- The events, beside a failure's, that a cycle of the running operation of `s` sets when it takes
`s` to `t` (R97, R151). -/
def ownEvents (s t : State) : List Event :=
  match s.point with
  | .sendMsg m => if t.point = .idle then [m.endEvent, .cmdDone] else []
  | .receive _ => receptionEvents s t
  | _ => if t.point = .idle then [.cmdDone] else []

/-- A running operation's events are those of its failure and its own. -/
theorem cycleEvents_of_running {s t : State} {i : Instr} (hi : s.point.instr = some i) :
    cycleEvents i s t = s.failureEvents ++ ownEvents s t := by
  unfold cycleEvents ownEvents
  congr 1
  cases hp : s.point with
  | idle => rw [hp] at hi; cases hi
  | sendMsg m => rw [hp] at hi; cases hi; cases t.point <;> simp
  | _ => rw [hp] at hi; cases hi; rfl

/-- A cycle that stays at its control point sets no event of its own. -/
theorem ownEvents_of_stay {s t : State} (hp : s.point ≠ .idle) (h : t.point = s.point) :
    ownEvents s t = [] := by
  unfold ownEvents receptionEvents
  rw [h]
  cases hq : s.point with
  | idle => exact absurd hq hp
  | receive q => cases q <;> simp
  | _ => simp

/-- Beside a failure's, a cycle of a running operation sets exactly its own events (R151). -/
theorem Cycle.sets_ownEvents {t w u : State} {p : Point} (h : Cycle t w p u) (hp : t.point = p)
    (hw : w.point = p) (hdest : w.frameDest = t.frameDest) (hbuild : w.build = t.build) :
    sets w u (ownEvents t u) := by
  cases h with
  | tick hne =>
    have hstay : (t.tick w).point = t.point := hw.trans hp.symm
    rw [ownEvents_of_stay (hp ▸ hne) hstay]; exact sets_none rfl rfl
  | phyStart | phyStop | sendByte | recvByte | sendMsg =>
    simp only [ownEvents, hp, enter_point, reduceCtorEq, if_false]; exact sets_none rfl rfl
  | phyStartEnd | phyStopEnd | sendByteEnd | recvByteEnd =>
    simp only [ownEvents, hp]; exact sets_one .cmdDone rfl rfl
  | sendMsgEnd m => simp only [ownEvents, hp]; exact sets_two m.endEvent .cmdDone rfl rfl
  | byteWait q a pos a' ack hq =>
    have hown : receptionEvents t
        (State.enter { w with ackOut := ack } (.receive (atByte q a'))) = [] := by
      unfold receptionEvents
      rw [hp]
      cases q <;> cases hq <;> rfl
    simp only [ownEvents, hp, hown]; exact sets_none rfl rfl
  | staleEcho =>
    simp only [ownEvents, receptionEvents, hp]; exact sets_one .staleEcho rfl rfl
  | oversizeDrain | oversizeStop =>
    simp only [ownEvents, receptionEvents, hp]; exact sets_one .oversize rfl rfl
  | deliver hd =>
    have hd' : t.frameDest = t.build.nodeId := hdest ▸ hbuild ▸ hd
    simp only [ownEvents, receptionEvents, hp, hd']; exact sets_one .msgDelivered rfl rfl
  | drop hd =>
    have hd' : ¬t.frameDest = t.build.nodeId := hdest ▸ hbuild ▸ hd
    simp only [ownEvents, receptionEvents, hp, hd']; exact sets_one .msgDropped rfl rfl
  | relayStart q hq =>
    rcases hq with rfl | ⟨rfl, -⟩ <;> simp only [ownEvents, receptionEvents, hp] <;>
      exact sets_none rfl rfl
  | relayBracket m =>
    simp only [ownEvents, receptionEvents, hp]; exact sets_one m.endEvent rfl rfl
  | relayEnd m =>
    simp only [ownEvents, receptionEvents, hp]; exact sets_two m.endEvent .msgRelayed rfl rfl
  | relayAfterEnd =>
    simp only [ownEvents, receptionEvents, hp]; exact sets_one .msgRelayed rfl rfl
  | _ =>
    simp only [ownEvents, receptionEvents, hp]; exact sets_none rfl rfl

/-- The events of the cycle in which an operation starts (R89, R97, R98, R105). -/
theorem startOf_sets {t : State} (w : State) (i : Instr) (hp : t.point = .idle) :
    sets w (startOf i t w) (cycleEvents i t (startOf i t w)) := by
  have hf : t.failureEvents = [] := by rw [failureEvents_eq, hp]; rfl
  simp only [cycleEvents.eq_def, hf, List.nil_append]
  cases i with
  | nop | linesIdle => exact sets_one .cmdDone rfl rfl
  | msgReceive => simp only [receptionEvents, hp]; exact sets_one .startSeen rfl rfl
  | sendMsg => simp only [hp]; exact sets_none rfl rfl
  | _ => exact sets_none rfl rfl

/-! ## Failure points (R141, R142) -/

/-- No cycle writes the diagnostic registers but by recording its failure. -/
theorem Cycle.diag {t w u : State} {p : Point} (h : Cycle t w p u) :
    u.diagLast = w.diagLast ∧ u.diagPos = w.diagPos ∧ u.diagCount = w.diagCount := by
  cases h <;> simp

theorem startOf_diag (t w : State) (i : Instr) :
    (startOf i t w).diagLast = w.diagLast ∧ (startOf i t w).diagPos = w.diagPos ∧
      (startOf i t w).diagCount = w.diagCount := by
  cases i <;> exact ⟨rfl, rfl, rfl⟩

theorem endEvent_not_failure (m : MsgSendAct) : m.endEvent ∉ allFailureEvents := by
  unfold MsgSendAct.endEvent
  split <;> decide

/-- The events of a reception's progress are none of a failure point. -/
theorem receptionEvents_not_failure (s t : State) :
    ∀ e ∈ receptionEvents s t, e ∉ allFailureEvents := by
  unfold receptionEvents
  cases s.point with
  | receive q =>
    cases q with
    | relay m =>
      have hend := endEvent_not_failure m
      dsimp only
      split <;> simp_all [allFailureEvents]
    | settle => dsimp only; split_ifs <;> simp [allFailureEvents]
    | sender | relayAfter => dsimp only; split <;> simp [allFailureEvents]
    | _ => simp
  | _ => simp [allFailureEvents]

theorem ownEvents_not_failure (s t : State) : ∀ e ∈ ownEvents s t, e ∉ allFailureEvents := by
  unfold ownEvents
  cases s.point with
  | sendMsg m =>
    have hend := endEvent_not_failure m
    dsimp only
    split <;> simp_all [allFailureEvents]
  | receive q => exact receptionEvents_not_failure s t
  | _ => dsimp only; split <;> simp [allFailureEvents]

/-- What is set beside the events `es` is none of a failure point's. -/
theorem setsOf_failure {s t : State} {es own : List Event} (h : sets s.edge t (es ++ own))
    (hown : ∀ e ∈ own, e ∉ allFailureEvents) : setsOf allFailureEvents s t es := by
  intro e he
  have hnot : e ∉ own := fun hmem => hown e hmem he
  simp [h e, hnot]

/-- The clock edge writes no diagnostic register but DIAG_COUNT (R49). -/
theorem noFailurePoint_of_sets {s t : State} {own : List Event}
    (hdiag : t.diagLast = s.edge.diagLast ∧ t.diagPos = s.edge.diagPos ∧
      t.diagCount = s.edge.diagCount)
    (h : sets s.edge t own) (hown : ∀ e ∈ own, e ∉ allFailureEvents) : noFailurePoint s t := by
  obtain ⟨hlast, hpos, hcount⟩ := hdiag
  exact ⟨by simp [hlast], by simp [hpos], by rw [hcount, edge_diagCount_eq],
    setsOf_failure (es := []) h hown⟩

theorem startEvents_not_failure {s t : State} (i : Instr) (hp : s.point = .idle) :
    ∀ e ∈ cycleEvents i s t, e ∉ allFailureEvents := by
  have hf : s.failureEvents = [] := by rw [failureEvents_eq, hp]; rfl
  simp only [cycleEvents.eq_def, hf, List.nil_append]
  cases i with
  | msgReceive => exact receptionEvents_not_failure s t
  | sendMsg => simp [hp]
  | nop | linesIdle => simp [allFailureEvents]
  | _ => dsimp only; split <;> simp [allFailureEvents]

/-- Settles O59: a running operation records its failure and then does what no failure point does; a
cycle in which an operation starts, or in which none runs, meets no failure. -/
theorem eachFailureIsRecordedWhereItOccurs : Obligations.EachFailureIsRecordedWhereItOccurs := by
  intro s t hr h
  rcases step_cycle_cases hr h with ⟨hp, hc⟩ | ⟨hp, rfl⟩ | ⟨hp, i, -, rfl⟩
  · obtain ⟨e0, e1, code', pos', count', hframe⟩ :=
      recordFailure_frame s.edge (s.point.failure s)
    have hsets := sets_trans (recordFailure_sets s.edge (s.point.failure s))
      (hc.sets_ownEvents rfl (by simp [hframe]) (by simp [hframe]) (by simp [hframe]))
    have hown := ownEvents_not_failure s t
    have hdiag := hc.diag
    cases hf : s.point.failure s with
    | none => rw [hf] at hsets hdiag; exact noFailurePoint_of_sets hdiag hsets hown
    | some f =>
      obtain ⟨code, pos⟩ := f
      rw [hf, recordFailure_some] at hdiag
      rw [hf] at hsets
      obtain ⟨hlast, hpos, hcount⟩ := hdiag
      refine ⟨by simp [hlast], by simp [hpos], ?_, setsOf_failure hsets hown⟩
      rw [hcount]
      simp [edge_diagCount_eq, incSat]
  · rw [hp]
    exact noFailurePoint_of_sets (own := []) ⟨rfl, rfl, rfl⟩ (sets_none rfl rfl) nofun
  · rw [hp]
    exact noFailurePoint_of_sets (startOf_diag s s.edge i) (startOf_sets s.edge i hp)
      (startEvents_not_failure i hp)

/-! ## Frames of the commands (R96, R97, R151) -/

/-! A control point belongs to the operation it stands in. -/

theorem point_of_sendByte {p : Point} (h : p.instr = some .sendByte) : ∃ a, p = .sendByte a := by
  cases p <;> cases h
  exact ⟨_, rfl⟩

theorem point_of_recvByte {p : Point} (h : p.instr = some .recvByte) : ∃ a, p = .recvByte a := by
  cases p <;> cases h
  exact ⟨_, rfl⟩

theorem point_of_sendMsg {p : Point} (h : p.instr = some .sendMsg) : ∃ m, p = .sendMsg m := by
  cases p <;> cases h
  exact ⟨_, rfl⟩

theorem point_of_msgReceive {p : Point} (h : p.instr = some .msgReceive) : ∃ q, p = .receive q := by
  cases p <;> cases h
  exact ⟨_, rfl⟩

theorem point_of_physical {p : Point} {i : Instr} (h : p.instr = some i)
    (hi : i = .phyStart ∨ i = .phyStop) : (∃ q, p = .phyStart q) ∨ ∃ q, p = .phyStop q := by
  cases p <;> cases h <;> simp at hi ⊢

/-- NOP and LINES_IDLE have no control point: they never go on. -/
theorem instr_ne_nop (p : Point) : p.instr ≠ some .nop := by cases p <;> nofun

theorem instr_ne_linesIdle (p : Point) : p.instr ≠ some .linesIdle := by cases p <;> nofun

theorem inCommand_of_instr {p : Point} {i : Instr} (h : p.instr = some i) (hi : i ≠ .msgReceive) :
    p.inCommand = true := by
  cases p with
  | idle => cases h
  | receive q => cases h; exact absurd rfl hi
  | _ => rfl

/-- A cycle of PHY_START or PHY_STOP writes the clock and the data line, its control point and, when
it ends, the registers of a completion. -/
theorem Cycle.physical_frame {t w u : State} {p : Point} (h : Cycle t w p u) (hw : w.point = p)
    (hp : (∃ q, p = .phyStart q) ∨ ∃ q, p = .phyStop q) :
    u = { w with
      clkOut := u.clkOut, datOut := u.datOut,
      point := u.point, cnt := u.cnt, cmdAct := u.cmdAct, pendValid := u.pendValid,
      cmdResult := u.cmdResult,
      event0 := if u.point = .idle then w.event0 ||| 0x01 else w.event0 } := by
  rcases hp with ⟨q, rfl⟩ | ⟨q, rfl⟩ <;> cases h <;>
    simp [State.tick, State.enter, State.raise, Event.mask0, Event.mask1, hw]

theorem Cycle.sendByte_frame {t w u : State} {a : SendByteAct} (h : Cycle t w (.sendByte a) u) :
    u = { w with
      clkOut := u.clkOut, datOut := u.datOut,
      point := u.point, cnt := u.cnt, cmdAct := u.cmdAct, pendValid := u.pendValid,
      cmdResult := u.cmdResult, event0 := u.event0 } := by
  cases h <;> simp [State.enter, State.raise, State.tick, Event.mask1]

theorem Cycle.recvByte_frame {t w u : State} {a : RecvByteAct} (h : Cycle t w (.recvByte a) u) :
    u = { w with
      ackOut := u.ackOut, rxByte := u.rxByte,
      point := u.point, cnt := u.cnt, cmdAct := u.cmdAct, pendValid := u.pendValid,
      cmdResult := u.cmdResult, event0 := u.event0 } := by
  cases h <;> simp [State.enter, State.raise, State.tick, Event.mask1]

theorem Cycle.sendMsg_frame {t w u : State} {m : MsgSendAct} (h : Cycle t w (.sendMsg m) u) :
    u = { w with
      clkOut := u.clkOut, datOut := u.datOut, txAct := u.txAct, lastAttempts := u.lastAttempts,
      point := u.point, cnt := u.cnt, cmdAct := u.cmdAct, pendValid := u.pendValid,
      cmdResult := u.cmdResult, event0 := u.event0, event1 := u.event1 } := by
  cases h <;> rfl

/-- The registers of a completion and the marks of a command, in a cycle of the running command. -/
theorem Cycle.command_registers {t w u : State} {p : Point} (h : Cycle t w p u) (hw : w.point = p)
    (hp : p.inCommand = true) :
    (u.point ≠ .idle →
      u.cmdResult = w.cmdResult ∧ u.rxByte = w.rxByte ∧ u.lastAttempts = w.lastAttempts) ∧
    u.cmdAct = (if u.point = .idle then false else w.cmdAct) ∧ u.pendValid = w.pendValid := by
  cases p with
  | idle => cases hp
  | receive q => cases hp
  | _ => cases h <;> simp [hw]

/-- The start of a command: the registers of a completion and the marks (R89, R96, R97). -/
theorem startOf_commandRegisters {s : State} {i : Instr} (hp : s.point = .idle)
    (hi : i ≠ .msgReceive) : commandRegisters s (startOf i s s.edge) := by
  cases i with
  | msgReceive => exact absurd rfl hi
  | _ => simp [commandRegisters, hp]

/-- The registers of a completion and the marks in every cycle of a command. -/
theorem exec_commandRegisters {s t : State} {i : Instr} (hf : s.fetch = some (.instr i))
    (h : exec i s = .next t) (hi : i ≠ .msgReceive) : commandRegisters s t := by
  rcases exec_cases hf h with ⟨hp, rfl⟩ | ⟨hp, hpi, hc⟩
  · exact startOf_commandRegisters hp hi
  · obtain ⟨e0, e1, code, pos, count, hframe⟩ := recordFailure_frame s.edge (s.point.failure s)
    have := hc.command_registers (by simp [hframe]) (inCommand_of_instr hpi hi)
    simpa [hframe, commandRegisters, hp] using this

/-- Settles O41: the frame of a running PHY_START or PHY_STOP, and the equations of the starts. -/
theorem frameOfPhysicalCommands : Obligations.FrameOfPhysicalCommands := by
  intro s t i hf h
  refine ⟨?_, ?_, fun hi => ?_, ?_⟩
  · rintro rfl
    rcases exec_cases hf h with ⟨-, rfl⟩ | ⟨-, hpi, -⟩
    · simp [State.enter, State.raise, Event.mask0, Event.mask1]
    · exact absurd hpi (instr_ne_nop s.point)
  · intro hi
    rcases exec_cases hf h with ⟨-, rfl⟩ | ⟨-, hpi, hc⟩
    · rcases hi with rfl | rfl <;> simp [State.enter]
    · have hphy := point_of_physical hpi hi
      have hnone : s.point.failure s = none := by
        rcases hphy with ⟨q, hq⟩ | ⟨q, hq⟩ <;> rw [hq] <;> rfl
      rw [hnone] at hc
      exact hc.physical_frame (edge_point s) hphy
  · exact exec_commandRegisters hf h (by rcases hi with rfl | rfl | rfl | rfl <;> decide)
  · rintro rfl
    rcases exec_cases hf h with ⟨-, rfl⟩ | ⟨-, hpi, -⟩
    · simp [State.enter, State.raise, State.linesIdle, Event.mask0, Event.mask1]
    · exact absurd hpi (instr_ne_linesIdle s.point)

/-- The step codes of a `RecvByte` (R86). -/
theorem recvByte_code_range (q : RecvBytePt) : 0x10 ≤ q.code.toNat ∧ q.code.toNat ≤ 0x22 := by
  cases q with
  | fall j | rise j => fin_cases j <;> decide
  | _ => decide

/-- A step code of `RecvByte` sets RX_TIMEOUT (R141). -/
theorem raiseFailureEvents_of_timeout {code : Byte} (h : 0x10 ≤ code.toNat ∧ code.toNat ≤ 0x22)
    (w : State) : w.raiseFailureEvents code = w.raise .rxTimeout := by
  have hack : code ≠ 0x30 := by rintro rfl; revert h; decide
  have hwait : code ≠ 0x31 := by rintro rfl; revert h; decide
  rw [State.raiseFailureEvents, if_neg hack, if_neg hwait, if_pos h]

/-- A cycle of RECV_BYTE leaves EVENT1 alone, also when it times out (R141). -/
theorem recordFailure_recvByte_event1 (s w : State) (a : RecvByteAct) :
    (recordFailure w (Point.failure s (.recvByte a))).event1 = w.event1 := by
  simp only [Point.failure, recvByte_failure_eq]
  split
  · rw [Option.map_some, recordFailure,
      raiseFailureEvents_of_timeout (recvByte_code_range a.pt)]
    simp [State.raise, Event.mask1]
  · rfl

/-! The frame of each command, beside what the clock edge does: its start, and its running cycle
with the failure recorded. -/

theorem exec_sendByte_frame {s t : State} (hf : s.fetch = some (.instr .sendByte))
    (h : exec .sendByte s = .next t) : t = { s.edge with
      clkOut := t.clkOut, datOut := t.datOut,
      point := t.point, cnt := t.cnt, cmdAct := t.cmdAct, pendValid := t.pendValid,
      cmdResult := t.cmdResult, event0 := t.event0, event1 := t.event1,
      diagLast := t.diagLast, diagPos := t.diagPos, diagCount := t.diagCount } := by
  rcases exec_cases hf h with ⟨-, rfl⟩ | ⟨-, hpi, hc⟩
  · rfl
  · obtain ⟨a, ha⟩ := point_of_sendByte hpi
    obtain ⟨e0, e1, code, pos, count, hframe⟩ := recordFailure_frame s.edge (s.point.failure s)
    rw [hframe, ha] at hc
    rw [hc.sendByte_frame]

theorem exec_recvByte_frame {s t : State} (hf : s.fetch = some (.instr .recvByte))
    (h : exec .recvByte s = .next t) : t = { s.edge with
      ackOut := t.ackOut, rxByte := t.rxByte,
      point := t.point, cnt := t.cnt, cmdAct := t.cmdAct, pendValid := t.pendValid,
      cmdResult := t.cmdResult, event0 := t.event0,
      diagLast := t.diagLast, diagPos := t.diagPos, diagCount := t.diagCount } := by
  rcases exec_cases hf h with ⟨-, rfl⟩ | ⟨-, hpi, hc⟩
  · rfl
  · obtain ⟨a, ha⟩ := point_of_recvByte hpi
    obtain ⟨e0, e1, code, pos, count, hframe⟩ := recordFailure_frame s.edge (s.point.failure s)
    have hevent1 : e1 = s.edge.event1 := by
      rw [← recordFailure_recvByte_event1 s s.edge a, ← ha, hframe]
    rw [hframe, ha, hevent1] at hc
    rw [hc.recvByte_frame]

theorem exec_sendMsg_frame {s t : State} (hf : s.fetch = some (.instr .sendMsg))
    (h : exec .sendMsg s = .next t) : t = { s.edge with
      clkOut := t.clkOut, datOut := t.datOut, txAct := t.txAct, lastAttempts := t.lastAttempts,
      point := t.point, cnt := t.cnt, cmdAct := t.cmdAct, pendValid := t.pendValid,
      cmdResult := t.cmdResult, event0 := t.event0, event1 := t.event1,
      diagLast := t.diagLast, diagPos := t.diagPos, diagCount := t.diagCount } := by
  rcases exec_cases hf h with ⟨-, rfl⟩ | ⟨-, hpi, hc⟩
  · rfl
  · obtain ⟨m, hm⟩ := point_of_sendMsg hpi
    obtain ⟨e0, e1, code, pos, count, hframe⟩ := recordFailure_frame s.edge (s.point.failure s)
    rw [hframe, hm] at hc
    rw [hc.sendMsg_frame]

/-- `tx_act` is set by the dispatch of SEND_MSG and cleared by its completion. -/
theorem exec_sendMsg_txAct {s t : State} (hf : s.fetch = some (.instr .sendMsg))
    (h : exec .sendMsg s = .next t) :
    t.txAct = (if t.point = .idle then false else if s.point = .idle then true else s.txAct) := by
  rcases exec_cases hf h with ⟨hp, rfl⟩ | ⟨hp, hpi, hc⟩
  · simp [hp]
  · obtain ⟨m, hm⟩ := point_of_sendMsg hpi
    obtain ⟨e0, e1, code, pos, count, hframe⟩ := recordFailure_frame s.edge (s.point.failure s)
    rw [hframe, hm] at hc
    cases hc <;> simp [hm]

/-- The events that the cycle of an operation sets are exactly those of R151's table. -/
theorem exec_setsExactly {s t : State} {i : Instr} (hf : s.fetch = some (.instr i))
    (h : exec i s = .next t) : setsExactly s t (cycleEvents i s t) := by
  rcases exec_cases hf h with ⟨hp, rfl⟩ | ⟨hp, hpi, hc⟩
  · exact startOf_sets s.edge i hp
  · rw [cycleEvents_of_running hpi, failureEvents_eq]
    obtain ⟨e0, e1, code, pos, count, hframe⟩ := recordFailure_frame s.edge (s.point.failure s)
    exact sets_trans (recordFailure_sets s.edge (s.point.failure s))
      (hc.sets_ownEvents rfl (by simp [hframe]) (by simp [hframe]) (by simp [hframe]))

/-- Settles O42: the frame of each command, its marks, and exactly the events of R151's table. -/
theorem frameOfByteAndMessageCommands : Obligations.FrameOfByteAndMessageCommands := by
  intro s t i hf h
  refine ⟨?_, ?_, ?_, ?_, fun hi => ⟨?_, exec_setsExactly hf h, fun k => ?_⟩⟩
  · rintro rfl; exact exec_sendByte_frame hf h
  · rintro rfl; exact exec_recvByte_frame hf h
  · rintro rfl; exact exec_sendMsg_frame hf h
  · rintro rfl; exact exec_sendMsg_txAct hf h
  · exact exec_commandRegisters hf h (by rcases hi with rfl | rfl | rfl <;> decide)
  · rcases hi with rfl | rfl | rfl
    · rw [exec_sendByte_frame hf h]; exact ⟨rfl, rfl⟩
    · rw [exec_recvByte_frame hf h]; exact ⟨rfl, rfl⟩
    · rw [exec_sendMsg_frame hf h]; exact ⟨rfl, rfl⟩

/-! ## The frame of a reception (R129 to R139) -/

/-- A cycle of a reception writes no command, TX, mask or CONFIG register. -/
theorem Cycle.reception_frame {t w u : State} {q : MsgReceivePt} (h : Cycle t w (.receive q) u) :
    u = { w with
      clkOut := u.clkOut, datOut := u.datOut, ackOut := u.ackOut, point := u.point, cnt := u.cnt,
      rxAct := u.rxAct, txAct := u.txAct,
      frameLen := u.frameLen, frameDest := u.frameDest, frameSrc := u.frameSrc,
      framePay := u.framePay, rxLen := u.rxLen, rxDest := u.rxDest, rxSrc := u.rxSrc,
      rxStore := u.rxStore, event0 := u.event0, event1 := u.event1,
      lastAttempts := u.lastAttempts } := by
  cases h <;> simp [State.tick, State.enter, State.raise, State.linesIdle, State.endReceive]

/-- `tx_act`, `rx_act` and LAST_ATTEMPTS follow the control point of a reception (R26, R50). -/
theorem Cycle.reception_marks {t w u : State} {q : MsgReceivePt} (h : Cycle t w (.receive q) u)
    (hw : w.point = .receive q) :
    ((Point.receive q).inSend = false ∨ u.point.inSend = true → u.lastAttempts = w.lastAttempts) ∧
    u.txAct = (if u.point.inSend = (Point.receive q).inSend then w.txAct else u.point.inSend) ∧
    u.rxAct = (if u.point = .idle then false else w.rxAct) := by
  cases h with
  | tick => simp [hw]
  | byteWait q a pos a' ack hq => cases q <;> cases hq <;> simp [atByte, Point.inSend]
  | oversizeNext p q' dat hq | stopNext p q' dat hq =>
    rcases hq with ⟨p', rfl⟩ | rfl <;> simp [Point.inSend]
  | relayStart q hq => rcases hq with rfl | ⟨rfl, -⟩ <;> simp [Point.inSend]
  | _ => simp [Point.inSend]

/-- The lines in a cycle of a reception (R100, R101, R110, R118, R139). -/
theorem Cycle.reception_lines {t w u : State} {q : MsgReceivePt} (h : Cycle t w (.receive q) u)
    (hw : w.point = .receive q) :
    (u.point.receiving? ≠ none → u.clkOut = w.clkOut ∧ u.datOut = w.datOut) ∧
    ((Point.receive q).receiving? = none → u.point ≠ .idle → u.point ≠ .receive .relayBefore →
      u.point ≠ .receive .relayAfter → u.ackOut = w.ackOut) ∧
    (u.point = .idle → u.clkOut = true ∧ u.datOut = true ∧ u.ackOut = true) := by
  cases h with
  | tick => simp [hw]
  | byteWait q a pos a' ack hq => cases q <;> cases hq <;> simp [Point.receiving?]
  | oversizeNext p q' dat hq | stopNext p q' dat hq =>
    rcases hq with ⟨p', rfl⟩ | rfl <;> simp [Point.receiving?]
  | _ => simp [Point.receiving?]

/-- FRAME changes only by the byte that carries each part (R129). -/
theorem Cycle.reception_frame_parts {t w u : State} {q : MsgReceivePt}
    (h : Cycle t w (.receive q) u) :
    ((∀ a, q ≠ .length a) → u.frameLen = w.frameLen) ∧
    ((∀ a, q ≠ .recipient a) → u.frameDest = w.frameDest) ∧
    ((∀ a, q ≠ .sender a) → u.frameSrc = w.frameSrc) ∧
    ((∀ k a, q ≠ .payload k a) → u.framePay = w.framePay) ∧
    ∀ k a, q = .payload k a → ∀ j, j ≠ k → u.framePay.read j = w.framePay.read j := by
  cases h with
  | payloadNext k a | payloadEnd k a =>
    simp only [enter_framePay]
    refine ⟨fun _ => rfl, fun _ => rfl, fun _ => rfl, fun hq => absurd rfl (hq k a), ?_⟩
    rintro _ _ ⟨⟩ j hj
    exact read_write_ne a.acc hj
  | _ => simp

/-- Settles O43: the parts of the frame of a running reception, and the equation of its start. -/
theorem frameOfMessageReception : Obligations.FrameOfMessageReception := by
  intro s t hf h
  have hsets := exec_setsExactly hf h
  rcases exec_cases hf h with ⟨hp, rfl⟩ | ⟨hp, hpi, hc⟩
  · refine ⟨rfl, fun _ => rfl, hsets, ?_⟩
    simp [hp, Point.inSend]
  · obtain ⟨q, hq⟩ := point_of_msgReceive hpi
    obtain ⟨e0, e1, code, pos, count, hframe⟩ := recordFailure_frame s.edge (s.point.failure s)
    rw [hframe, hq] at hc
    have hfr := hc.reception_frame
    have hmarks := hc.reception_marks (by simp [hq])
    have hlines := hc.reception_lines (by simp [hq])
    have hparts := hc.reception_frame_parts
    refine ⟨by rw [hfr], fun k => by rw [hfr]; rfl, hsets, ?_⟩
    simpa [hq, and_assoc] using And.intro hmarks (And.intro hlines hparts)

/-! ## The RX message registers (R44, R45, R134) -/

/-- A running operation leaves the RX message registers alone, but for a delivery. -/
theorem Cycle.rx_registers {t w u : State} {p : Point} (h : Cycle t w p u) :
    (u.rxLen = w.rxLen ∧ u.rxDest = w.rxDest ∧ u.rxSrc = w.rxSrc ∧ u.rxStore = w.rxStore) ∨
    (p = .receive .settle ∧ w.frameDest = w.build.nodeId ∧
      u.flag .msgDelivered = true ∧ u.rxLen = w.frameLen ∧ u.rxDest = w.frameDest ∧
      u.rxSrc = w.frameSrc ∧ u.rxStore = w.framePay.copy w.build.maxLen w.rxStore) := by
  cases h with
  | deliver hdest =>
    have hflag : (w.deliver.raise .msgDelivered).finishReceive.flag .msgDelivered =
      (w.deliver.raise .msgDelivered).flag .msgDelivered := rfl
    exact .inr ⟨rfl, hdest, by rw [hflag, raise_flag]; simp, by simp⟩
  | _ => exact .inl (by simp)

/-- Settles O44: no cycle but the one that ends the settle delay of a delivery writes them. -/
theorem rxRegistersChangeOnlyAtADelivery : Obligations.RxRegistersChangeOnlyAtADelivery := by
  intro s t hr hwf h
  rcases step_cycle_cases hr h with ⟨-, hc⟩ | ⟨-, rfl⟩ | ⟨-, i, -, rfl⟩
  · obtain ⟨e0, e1, code, pos, count, hframe⟩ := recordFailure_frame s.edge (s.point.failure s)
    rw [hframe] at hc
    rcases hc.rx_registers with hsame | ⟨hp, hdest, hflag, hlen, hd, hsrc, hstore⟩
    · exact .inl (by simpa using hsame)
    · refine .inr ⟨hp, by simpa using hdest, hflag, by simpa using hlen, by simpa using hd,
        by simpa using hsrc, fun k hk => ?_⟩
      simp [hstore, read_copy hwf, hk]
  · exact .inl (by simp)
  · exact .inl (by cases i <;> simp)

/-! ## The synchronisers (R22) -/

/-- No operation writes the build parameters, the synchronisers, `di_prev` or the inputs. -/
theorem Cycle.environment {t w u : State} {p : Point} (h : Cycle t w p u) :
    u.build = w.build ∧ u.clkSync = w.clkSync ∧ u.datSync = w.datSync ∧ u.ackSync = w.ackSync ∧
      u.diPrev = w.diPrev ∧ u.inputs = w.inputs := by
  cases h <;> simp

theorem startOf_environment (t w : State) (i : Instr) :
    (startOf i t w).build = w.build ∧ (startOf i t w).clkSync = w.clkSync ∧
      (startOf i t w).datSync = w.datSync ∧ (startOf i t w).ackSync = w.ackSync ∧
      (startOf i t w).diPrev = w.diPrev ∧ (startOf i t w).inputs = w.inputs := by
  cases i <;> simp

/-- What every step without reset does with the build parameters, the synchronisers, `di_prev` and
the inputs (R22, R23). -/
theorem step_environment {s t : State} (hr : s.now.rst = false) (h : step s = .next t) :
    t.build = s.build ∧ t.clkSync = shiftIn s.now.clkIn s.clkSync ∧
      t.datSync = shiftIn s.now.datIn s.datSync ∧ t.ackSync = shiftIn s.now.ackIn s.ackSync ∧
      t.diPrev = s.di ∧ t.inputs = s.inputs.tail := by
  rcases step_cycle_cases hr h with ⟨-, hc⟩ | ⟨-, rfl⟩ | ⟨-, i, -, rfl⟩
  · obtain ⟨e0, e1, code, pos, count, hframe⟩ := recordFailure_frame s.edge (s.point.failure s)
    simpa [hframe] using hc.environment
  · simp
  · simpa using startOf_environment s s.edge i

/-- What a synchroniser shows now is its last stage. -/
theorem shownAt_zero {stages : List Level} (pins : List Level) (h : stages ≠ []) :
    shownAt stages pins 0 = stages.getLastD true := by
  obtain ⟨init, last, rfl⟩ := (List.eq_nil_or_concat' stages).resolve_left h
  simp [shownAt]

theorem getD_append_default {α : Type} (l : List α) (n : Nat) (d : α) :
    (l ++ [d]).getD n d = l.getD n d := by
  induction l generalizing n with
  | nil => cases n <;> simp
  | cons x l ih =>
    cases n with
    | zero => rfl
    | succ n => simpa using ih n

/-- One cycle of a synchroniser with at least one stage: what it shows later comes one cycle nearer.
A pin past the end of the inputs is at 1. -/
theorem shownAt_shiftIn {stages : List Level} (pins : List Level) (h : stages ≠ []) (n : Nat) :
    shownAt (shiftIn (pins.headD true) stages) pins.tail n = shownAt stages pins (n + 1) := by
  obtain ⟨init, last, rfl⟩ := (List.eq_nil_or_concat' stages).resolve_left h
  have hshift : shiftIn (pins.headD true) (init ++ [last]) = pins.headD true :: init :=
    List.dropLast_concat (l₁ := pins.headD true :: init)
  rw [hshift]
  cases pins with
  | nil => simpa [shownAt] using getD_append_default init.reverse n true
  | cons pin pins => simp [shownAt]

/-- Settles O50, by induction on the number of cycles. -/
theorem synchroniserDelay : Obligations.SynchroniserDelay := by
  intro n
  induction n with
  | zero =>
    intro s t hs _ h
    obtain ⟨hd, hclk, hdat, hack⟩ := hs
    have stages_ne {l : List Level} (hl : l.length = s.build.syncStages) : l ≠ [] := by
      rintro rfl; simp at hl; omega
    cases h
    exact ⟨(shownAt_zero _ (stages_ne hclk)).symm, (shownAt_zero _ (stages_ne hdat)).symm,
      (shownAt_zero _ (stages_ne hack)).symm⟩
  | succ n ih =>
    intro s t hs hn h
    obtain ⟨hr, hrest⟩ := noReset_succ hn
    obtain ⟨hd, hclk, hdat, hack⟩ := hs
    have stages_ne {l : List Level} (hl : l.length = s.build.syncStages) : l ≠ [] := by
      rintro rfl; simp at hl; omega
    cases hs : step s with
    | fault f => simp [run, hs] at h
    | refused r => simp [run, hs] at h
    | next u =>
      rw [run_succ_of_step hs] at h
      obtain ⟨hub, huclk, hudat, huack, -, huin⟩ := step_environment hr hs
      have key := ih u t (by simp [State.syncsOk, hub, huclk, hudat, huack, hd, hclk, hdat, hack])
        (by rw [State.noReset, huin]; exact hrest) h
      have hnow (f : Input → Level) (hf : f Input.undriven = true) :
          f s.now = (s.inputs.map f).headD true := by
        unfold State.now; cases s.inputs <;> simp [hf]
      rw [State.ciAt, State.diAt, State.aiAt, huclk, hudat, huack, huin, List.map_tail,
        List.map_tail, List.map_tail, hnow (·.clkIn) rfl, hnow (·.datIn) rfl, hnow (·.ackIn) rfl,
        shownAt_shiftIn _ (stages_ne hclk), shownAt_shiftIn _ (stages_ne hdat),
        shownAt_shiftIn _ (stages_ne hack)] at key
      exact key

/-! ## What a segment does not see (R33 to R35, R49)

No segment reads the event flags, the masks or DIAG_COUNT, nor the CONFIG that the host's write
leaves at the edge: it only sets flags and counts at most once. So a segment over `w` is the segment
over `w` with these registers at 0, laid over `w`. -/

/-- `u` laid over `w`: masks and CONFIG are `w`'s, the flags of `u` are set in `w`'s, and `w`'s
count is counted up if `u`'s is not 0. -/
def overlay (w u : State) : State :=
  { u with
    irqEn0 := w.irqEn0
    irqEn1 := w.irqEn1
    config := w.config
    event0 := w.event0 ||| u.event0
    event1 := w.event1 ||| u.event1
    diagCount := if u.diagCount = 0 then w.diagCount else incSat w.diagCount }

/-- `w` with the registers at 0 that no segment reads. -/
def blank (w : State) : State :=
  { w with irqEn0 := 0, irqEn1 := 0, config := 0, event0 := 0, event1 := 0, diagCount := 0 }

theorem overlay_blank (w : State) : overlay w (blank w) = w := by
  simp [overlay, blank]

section Overlay
variable (t w u : State)

@[simp] theorem overlay_build : (overlay w u).build = u.build := rfl
@[simp] theorem overlay_frameLen : (overlay w u).frameLen = u.frameLen := rfl
@[simp] theorem overlay_frameDest : (overlay w u).frameDest = u.frameDest := rfl
@[simp] theorem overlay_frameSrc : (overlay w u).frameSrc = u.frameSrc := rfl

theorem raise_overlay (e : Event) : (overlay w u).raise e = overlay w (u.raise e) :=
  congrArg₂ (fun x y : Byte => ({ overlay w u with event0 := x, event1 := y } : State))
    (BitVec.or_assoc w.event0 u.event0 e.mask0) (BitVec.or_assoc w.event1 u.event1 e.mask1)

/-- A failure point is counted over `w`'s count, if none was counted before. -/
theorem raiseFailure_overlay (hu : u.diagCount = 0) (code : Byte) (pos : BytePos) :
    (overlay w u).raiseFailure code pos = overlay w (u.raiseFailure code pos) := by
  have hcount : { overlay w u with
        diagLast := code, diagPos := pos.code, diagCount := incSat (overlay w u).diagCount } =
      overlay w
        { u with diagLast := code, diagPos := pos.code, diagCount := incSat u.diagCount } := by
    simp [overlay, hu, incSat]
  simp only [State.raiseFailure, State.raiseFailureEvents, hcount, raise_overlay]
  split_ifs <;> rfl

theorem delay_overlay {n : Nat} {k : State → State}
    (hk : k (overlay w u) = overlay w (k u)) :
    t.delay (overlay w u) n k = overlay w (t.delay u n k) := by
  unfold State.delay
  split
  · rfl
  · exact hk

theorem wait_overlay {cond : Bool} {n : Nat} {k : Bool → State → State}
    (hk : ∀ ok, k ok (overlay w u) = overlay w (k ok u)) :
    t.wait (overlay w u) cond n k = overlay w (t.wait u cond n k) := by
  unfold State.wait
  split
  · exact hk true
  · split
    · rfl
    · exact hk false

theorem goPhyStart_overlay {q : PhyStartPt} {wrap : PhyStartPt → Point} {ret : State → State}
    (hret : ret (overlay w u) = overlay w (ret u)) :
    t.goPhyStart (overlay w u) q wrap ret = overlay w (t.goPhyStart u q wrap ret) := by
  unfold State.goPhyStart
  cases q with
  | high => exact delay_overlay t w u rfl
  | low => exact delay_overlay t w u hret

theorem goPhyStop_overlay {q : PhyStopPt} {wrap : PhyStopPt → Point} {ret : State → State}
    (hret : ret (overlay w u) = overlay w (ret u)) :
    t.goPhyStop (overlay w u) q wrap ret = overlay w (t.goPhyStop u q wrap ret) := by
  unfold State.goPhyStop
  cases q with
  | clock => exact delay_overlay t w u rfl
  | data => exact delay_overlay t w u hret

theorem goSendByte_overlay (hu : u.diagCount = 0) {a : SendByteAct} {pos : BytePos}
    {wrap : SendByteAct → Point} {ret : Bool → State → State}
    (hret : ∀ ok v, ret ok (overlay w v) = overlay w (ret ok v)) :
    t.goSendByte (overlay w u) a pos wrap ret = overlay w (t.goSendByte u a pos wrap ret) := by
  unfold State.goSendByte
  obtain ⟨v, pt⟩ := a
  cases pt with
  | clockLow j | dataLow j => exact delay_overlay t w u rfl
  | clockHigh j =>
    refine delay_overlay t w u ?_
    unfold State.afterCell
    split
    · rfl
    · split
      · rw [raiseFailure_overlay w u hu, hret]
      · rfl
  | ackWait =>
    refine wait_overlay t w u fun ok => ?_
    split
    · rfl
    · rw [raiseFailure_overlay w u hu, hret]
  | ackPulse => exact delay_overlay t w u (hret true u)

theorem goRecvByte_overlay (hu : u.diagCount = 0) {a : RecvByteAct} {pos : BytePos}
    {wrap : RecvByteAct → Point} {ret : Byte → Bool → State → State}
    (hret : ∀ v ok x, ret v ok (overlay w x) = overlay w (ret v ok x)) :
    t.goRecvByte (overlay w u) a pos wrap ret = overlay w (t.goRecvByte u a pos wrap ret) := by
  refine wait_overlay t w u fun ok => ?_
  split
  · obtain ⟨acc, pt⟩ := a
    cases pt with
    | ackFall => exact hret acc true { u with ackOut := true }
    | _ => rfl
  · rw [raiseFailure_overlay w u hu, hret]

theorem endMsgSend_overlay (m : MsgSendAct) (ok : Bool) {ret : Bool → State → State}
    (hret : ∀ ok v, ret ok (overlay w v) = overlay w (ret ok v)) :
    (overlay w u).endMsgSend m ok ret = overlay w (u.endMsgSend m ok ret) := by
  unfold State.endMsgSend
  rw [← hret]
  congr 1
  exact congrArg (fun x : State => { x with txAct := false })
    (raise_overlay w { u with lastAttempts := BitVec.ofNat 8 m.attempt }
      (if ok then .sendOk else .sendFailed))

theorem goMsgSend_overlay (hu : u.diagCount = 0) {m : MsgSendAct} {wrap : MsgSendAct → Point}
    {ret : Bool → State → State} (hret : ∀ ok v, ret ok (overlay w v) = overlay w (ret ok v)) :
    t.goMsgSend (overlay w u) m wrap ret = overlay w (t.goMsgSend u m wrap ret) := by
  unfold State.goMsgSend
  obtain ⟨src, attempt, fail, p, pt⟩ := m
  cases pt with
  | start q => exact goPhyStart_overlay t w u rfl
  | byte a =>
    refine goSendByte_overlay t w u hu fun ok v => ?_
    unfold State.afterByte
    split <;> rfl
  | stop q =>
    refine goPhyStop_overlay t w u ?_
    unfold State.afterStop
    split
    · exact endMsgSend_overlay w u _ true hret
    · split
      · exact endMsgSend_overlay w u _ false hret
      · rfl

theorem endCommand_overlay (failed : Bool) :
    (overlay w u).endCommand failed = overlay w (u.endCommand failed) :=
  congrArg (fun x : State => State.enter { x with cmdAct := false } .idle)
    (raise_overlay w { u with cmdResult := zext8 failed } .cmdDone)

/-- A reception that ends with an event. -/
theorem raise_finishReceive_overlay (e : Event) :
    ((overlay w u).raise e).finishReceive = overlay w (u.raise e).finishReceive :=
  congrArg State.finishReceive (raise_overlay w u e)

theorem drainFrom_overlay (k : Nat) :
    (overlay w u).drainFrom k = overlay w (u.drainFrom k) := by
  unfold State.drainFrom
  rw [overlay_frameLen]
  split_ifs <;> rfl

theorem payloadFrom_overlay (k : Nat) :
    (overlay w u).payloadFrom k = overlay w (u.payloadFrom k) := by
  unfold State.payloadFrom
  rw [overlay_frameLen]
  split_ifs <;> rfl

theorem validate_overlay : t.validate (overlay w u) = overlay w (t.validate u) := by
  simp only [State.validate, overlay_build, overlay_frameLen, overlay_frameDest, overlay_frameSrc,
    raise_overlay]
  split_ifs
  · rfl
  · exact drainFrom_overlay w (u.raise .oversize) 0
  · rfl
  · exact payloadFrom_overlay w u 0

theorem endRelay_overlay : (overlay w u).endRelay = overlay w u.endRelay :=
  raise_finishReceive_overlay w u .msgRelayed

theorem dispose_overlay : t.dispose (overlay w u) = overlay w (t.dispose u) := by
  by_cases hdest : u.frameDest = u.build.nodeId
  · simp only [State.dispose, overlay_build, overlay_frameDest, hdest, if_true]
    exact raise_finishReceive_overlay w u.deliver .msgDelivered
  · by_cases hpos : 0 < u.frameLen.toNat
    · simp only [State.dispose, overlay_build, overlay_frameDest, overlay_frameLen, hdest, hpos,
        if_true, if_false]
      split_ifs <;> rfl
    · simp only [State.dispose, overlay_build, overlay_frameDest, overlay_frameLen, hdest, hpos,
        if_false]
      exact raise_finishReceive_overlay w u .msgDropped

theorem afterRelay_overlay : t.afterRelay (overlay w u) = overlay w (t.afterRelay u) := by
  unfold State.afterRelay
  split_ifs
  · rfl
  · exact endRelay_overlay w u

theorem afterReception_overlay (q : MsgReceivePt) (v : Byte) :
    afterReception t q v (overlay w u) = overlay w (afterReception t q v u) := by
  cases q with
  | sender a => exact validate_overlay t w { u with frameSrc := v }
  | drain k a => exact drainFrom_overlay w u (k + 1)
  | payload k a => exact payloadFrom_overlay w { u with framePay := u.framePay.write k v } (k + 1)
  | _ => rfl

theorem goMsgReceive_overlay (hu : u.diagCount = 0) (q : MsgReceivePt) :
    t.goMsgReceive (overlay w u) q = overlay w (t.goMsgReceive u q) := by
  cases hq : q.byte? with
  | some b =>
    obtain ⟨a, pos⟩ := b
    rw [goMsgReceive_of_byte t _ hq, goMsgReceive_of_byte t _ hq]
    exact goRecvByte_overlay t w u hu fun v _ x => afterReception_overlay t w x q v
  | none =>
    unfold State.goMsgReceive
    cases q with
    | oversizeStop p | stop p => exact goPhyStop_overlay t w u rfl
    | oversizeSettle => exact delay_overlay t w u rfl
    | settle => exact delay_overlay t w u (dispose_overlay t w u)
    | relayBefore => exact delay_overlay t w u rfl
    | relay m => exact goMsgSend_overlay t w u hu fun _ v => afterRelay_overlay t w v
    | relayAfter => exact delay_overlay t w u (endRelay_overlay w u)
    | _ => cases hq

/-- The running operation over an overlay, of which no failure was counted. -/
theorem resume_overlay (hu : u.diagCount = 0) :
    t.resume (overlay w u) = overlay w (t.resume u) := by
  unfold State.resume
  cases t.point with
  | idle => rfl
  | phyStart q => exact goPhyStart_overlay t w u (endCommand_overlay w u false)
  | phyStop q => exact goPhyStop_overlay t w u (endCommand_overlay w u false)
  | sendByte a => exact goSendByte_overlay t w u hu fun ok v => endCommand_overlay w v (!ok)
  | recvByte a =>
    exact goRecvByte_overlay t w u hu fun v ok x =>
      endCommand_overlay w { x with rxByte := v } (!ok)
  | sendMsg m => exact goMsgSend_overlay t w u hu fun ok v => endCommand_overlay w v (!ok)
  | receive q => exact goMsgReceive_overlay t w u hu q

theorem startOf_overlay (i : Instr) :
    startOf i t (overlay w u) = overlay w (startOf i t u) := by
  cases i with
  | nop => exact endCommand_overlay w u.beginCommand false
  | linesIdle => exact endCommand_overlay w u.beginCommand.linesIdle false
  | msgReceive =>
    exact congrArg (fun x : State => State.beginMsgReceive { x with rxAct := true })
      (raise_overlay w u .startSeen)
  | _ => rfl

end Overlay

/-! ### The segment of a cycle -/

/-- The segment that the block runs in a cycle without reset, over the state after the clock edge;
none if the latch holds a reserved opcode. -/
def segment (s : State) : Option (State → State) :=
  match s.point, s.poll with
  | .idle, none => some id
  | .idle, some (.instr i) => some (startOf i s)
  | .idle, some (.rejected _) => none
  | _, _ => some s.resume

theorem segment_of_running {s : State} (hp : s.point ≠ .idle) : segment s = some s.resume := by
  unfold segment
  cases h : s.point <;> simp_all

/-- A step without reset is its segment over the clock edge. -/
theorem step_next_iff {s t : State} (hr : s.now.rst = false) :
    step s = .next t ↔ ∃ g, segment s = some g ∧ t = g s.edge := by
  by_cases hp : s.point = .idle
  · cases hpoll : s.poll with
    | none => simp [segment, step, hr, hp, fetch_of_idle hp, hpoll, State.idleCycle, eq_comm]
    | some d =>
      cases d with
      | instr i =>
        simp [segment, step, hr, hp, fetch_of_idle hp, hpoll, exec_eq, operate_of_idle _ hp,
          eq_comm]
      | rejected e => simp [segment, step, hr, hp, fetch_of_idle hp, hpoll]
  · simp [segment_of_running hp, step_of_running hr hp, eq_comm]

/-- No segment sees what is laid under it. -/
theorem segment_overlay {s : State} {g : State → State} (hg : segment s = some g) (w u : State)
    (hu : u.diagCount = 0) : g (overlay w u) = overlay w (g u) := by
  unfold segment at hg
  split at hg <;> cases hg
  · rfl
  · exact startOf_overlay s w u _
  · exact resume_overlay s w u hu

/-- Two cycles with the same segment whose clock edges agree but for the registers no segment reads.
-/
theorem step_overlay {s s' t : State} (hr : s.now.rst = false) (hr' : s'.now.rst = false)
    (hseg : segment s' = segment s) (hedge : blank s'.edge = blank s.edge)
    (h : step s' = .next t) :
    ∃ u, t = overlay s'.edge u ∧ step s = .next (overlay s.edge u) := by
  obtain ⟨g, hg, rfl⟩ := (step_next_iff hr').mp h
  have hover (w : State) : g w = overlay w (g (blank w)) := by
    rw [← segment_overlay hg w (blank w) rfl, overlay_blank]
  refine ⟨g (blank s.edge), by rw [hover, hedge], (step_next_iff hr).mpr ⟨g, hseg ▸ hg, ?_⟩⟩
  exact (hover s.edge).symm

/-! ## Host writes at the edge (R57, R59, R61) -/

/-- What the clock edge of `s` does beside the host's access, to a state `v` (R22, R23). -/
def clocked (s v : State) : State :=
  { v with
    clkSync := shiftIn s.now.clkIn s.clkSync
    datSync := shiftIn s.now.datIn s.datSync
    ackSync := shiftIn s.now.ackIn s.ackSync
    diPrev := s.di
    inputs := s.inputs.tail }

theorem edge_eq (s : State) : s.edge = clocked s s.hostAccess := rfl

theorem edge_of_writes {s : State} {a : Addr} {d : Byte} (h : s.writes a d) :
    s.edge = clocked s (s.writeReg (regAt a) d) := by
  obtain ⟨-, hsel, hwe, rfl, rfl⟩ := h
  simp [edge_eq, State.hostAccess, hsel, hwe, State.hostWrite]

theorem noAccess_edge (s : State) : s.noAccess.edge = clocked s s := by
  rw [edge_eq, hostAccess_of_no_write _ rfl]
  rfl

/-- The segment of a cycle does not depend on the inputs, the flags or DIAG_COUNT. -/
theorem segment_unseen (s : State) (xs : List Input) (e0 e1 count : Byte) :
    segment { s with inputs := xs, event0 := e0, event1 := e1, diagCount := count } =
      segment s := by
  have hstart (i : Instr) : startOf i { s with
      inputs := xs, event0 := e0, event1 := e1, diagCount := count } = startOf i s := by
    cases i <;> rfl
  have hresume : State.resume { s with
      inputs := xs, event0 := e0, event1 := e1, diagCount := count } = s.resume := rfl
  simp only [segment, hstart, hresume]
  rfl

theorem segment_noAccess (s : State) : segment s.noAccess = segment s :=
  segment_unseen s _ s.event0 s.event1 s.diagCount

theorem noAccess_rst (s : State) : s.noAccess.now.rst = s.now.rst := rfl

theorem regAt_of_toNat {a : Addr} {n : Nat} (h : a.toNat = n) : a = BitVec.ofNat 10 n := by
  rw [← h, BitVec.ofNat_toNat, BitVec.setWidth_eq]

/-- Settles O15: the segment is the same one, and sees neither masks nor CONFIG at the edge. -/
theorem configAndMaskWritesLandAtTheEdge : Obligations.ConfigAndMaskWritesLandAtTheEdge := by
  intro s t a d hw h
  have hr : s.now.rst = false := hw.1
  have hedge := edge_of_writes hw
  refine ⟨fun ha => ?_, fun ha => ?_, fun ha => ?_⟩ <;>
  · obtain rfl := regAt_of_toNat ha
    obtain ⟨u, rfl, hu⟩ := step_overlay hr ((noAccess_rst s).trans hr) (segment_noAccess s)
      (by rw [hedge, noAccess_edge]; rfl) h
    rw [hu, hedge, noAccess_edge]
    rfl

/-! ### The event registers and DIAG_COUNT (R35, R49) -/

/-- `v` with flags set beside its own and another count. -/
def under (e0 e1 count : Byte) (v : State) : State :=
  { v with event0 := e0 ||| v.event0, event1 := e1 ||| v.event1, diagCount := count }

theorem raise_under (e0 e1 count : Byte) (v : State) (e : Event) :
    (under e0 e1 count v).raise e = under e0 e1 count (v.raise e) :=
  congrArg₂ (fun x y : Byte => ({ v with event0 := x, event1 := y, diagCount := count } : State))
    (BitVec.or_assoc e0 v.event0 e.mask0) (BitVec.or_assoc e1 v.event1 e.mask1)

theorem writeCmd_under (e0 e1 count : Byte) (v : State) (d : Byte) :
    (under e0 e1 count v).writeCmd d = under e0 e1 count (v.writeCmd d) := by
  have hverdict : (under e0 e1 count v).cmdVerdict d = v.cmdVerdict d := rfl
  unfold State.writeCmd
  rw [hverdict]
  cases v.cmdVerdict d with
  | rejected => exact raise_under e0 e1 count v .cmdRejected
  | illegal => exact raise_under e0 e1 count v .cmdIllegal
  | accepted => rfl

theorem writeTx_under (e0 e1 count : Byte) (v v' : State) :
    (under e0 e1 count v).writeTx (under e0 e1 count v') = under e0 e1 count (v.writeTx v') := by
  have hbusy : (under e0 e1 count v).busy = v.busy := rfl
  unfold State.writeTx
  rw [hbusy, raise_under]
  split <;> rfl

theorem writeTxBuf_under (e0 e1 count : Byte) (v : State) (k : Nat) (d : Byte) :
    (under e0 e1 count v).writeTxBuf k d = under e0 e1 count (v.writeTxBuf k d) := by
  by_cases hk : k < v.build.maxLen
  · have hwrite := writeTx_under e0 e1 count v { v with txBuf := v.txBuf.write k d }
    exact (if_pos hk).trans (hwrite.trans (congrArg _ (if_pos hk).symm))
  · exact (if_neg hk).trans (congrArg _ (if_neg hk).symm)

/-- A host write neither sees the flags and the count nor changes more of them than its own
register. -/
theorem writeReg_under {e0 e1 : Byte} (count : Byte) (v : State) {r : Reg} (d : Byte)
    (h0 : r = .event0 → e0 = 0) (h1 : r = .event1 → e1 = 0) :
    (under e0 e1 count v).writeReg r d =
      under e0 e1 (if r = .diagCount then 0 else count) (v.writeReg r d) := by
  cases r with
  | cmd => exact writeCmd_under e0 e1 count v d
  | txLen => exact writeTx_under e0 e1 count v { v with txLen := d }
  | txDest => exact writeTx_under e0 e1 count v { v with txDest := d }
  | txByte => exact writeTx_under e0 e1 count v { v with txByte := d }
  | txBuf k => exact writeTxBuf_under e0 e1 count v k d
  | event0 => rw [h0 rfl]; simp [State.writeReg, under, clearOnes]
  | event1 => rw [h1 rfl]; simp [State.writeReg, under, clearOnes]
  | _ => rfl

/-- The event registers stand at 0x003 and 0x004 only (R56). -/
theorem regAt_event (a : Addr) :
    (regAt a = .event0 → a = 0x003) ∧ (regAt a = .event1 → a = 0x004) := by
  constructor <;> intro h <;> unfold regAt at h <;> split at h <;> first
    | contradiction
    | split_ifs at h
    | (apply BitVec.eq_of_toNat_eq; assumption)

/-- The host writes to address `a` in this cycle. -/
abbrev writesTo (s : State) (a : Addr) : Prop :=
  s.now.hSel = true ∧ s.now.hWe = true ∧ s.now.hAddr = a

/-- The clock edge over added flags and another count. -/
theorem edge_under {e0 e1 : Byte} (count : Byte) (v : State) (h0 : writesTo v 0x003 → e0 = 0)
    (h1 : writesTo v 0x004 → e1 = 0) :
    (under e0 e1 count v).edge = under e0 e1 (if writesTo v 0x012 then 0 else count) v.edge := by
  have hnow : (under e0 e1 count v).now = v.now := rfl
  have haccess : (under e0 e1 count v).hostAccess =
      under e0 e1 (if writesTo v 0x012 then 0 else count) v.hostAccess := by
    unfold State.hostAccess State.hostWrite
    rw [hnow]
    by_cases hw : (v.now.hSel && v.now.hWe) = true
    · obtain ⟨hsel, hwe⟩ : v.now.hSel = true ∧ v.now.hWe = true := by simpa using hw
      obtain ⟨hreg0, hreg1⟩ := regAt_event v.now.hAddr
      rw [if_pos hw, if_pos hw, writeReg_under count v v.now.hWdata
        (fun h => h0 ⟨hsel, hwe, hreg0 h⟩) (fun h => h1 ⟨hsel, hwe, hreg1 h⟩)]
      simp only [regAt_diagCount, writesTo, hsel, hwe, true_and]
    · have hno : ¬writesTo v 0x012 := fun h => hw (by simp [h.1, h.2.1])
      rw [if_neg hw, if_neg hw, if_neg hno]
  rw [edge_eq, haccess]
  rfl

/-- The clock edge over added flags. -/
theorem edge_under_flags {e0 e1 : Byte} (v : State) (h0 : writesTo v 0x003 → e0 = 0)
    (h1 : writesTo v 0x004 → e1 = 0) :
    (under e0 e1 v.diagCount v).edge = under e0 e1 v.edge.diagCount v.edge := by
  rw [edge_under v.diagCount v h0 h1, edge_diagCount_eq]
  rfl

/-- Flags added under a cycle are in the next state beside those the cycle sets. -/
theorem step_under {s s' t : State} {e0 e1 : Byte} (hr : s.now.rst = false)
    (hr' : s'.now.rst = false) (hseg : segment s' = segment s)
    (hedge : s.edge = under e0 e1 s'.edge.diagCount s'.edge) (h : step s' = .next t) :
    step s = .next (under e0 e1 t.diagCount t) := by
  obtain ⟨u, rfl, hu⟩ := step_overlay hr hr' hseg (by rw [hedge]; rfl) h
  rw [hu, hedge]
  exact congrArg Host.Outcome.next (congrArg₂
    (fun x y : Byte => ({ overlay s'.edge u with event0 := x, event1 := y } : State))
    (BitVec.or_assoc e0 s'.edge.event0 u.event0) (BitVec.or_assoc e1 s'.edge.event1 u.event1))

theorem under_event0 (e0 : Byte) (v : State) :
    under e0 0 v.diagCount v = { v with event0 := e0 ||| v.event0 } := by
  simp [under]

theorem under_event1 (e1 : Byte) (v : State) :
    under 0 e1 v.diagCount v = { v with event1 := e1 ||| v.event1 } := by
  simp [under]

/-! In the lemmas below the second state is the cycle of the claims: the register at 0, and no host
access if it is a write to that register. -/

/-- A host write of ones clears their flags at the edge (R35). -/
theorem edge_event0_written {s : State} (hw : writesTo s 0x003) :
    let s' : State := { s.noAccess with event0 := 0 }
    s.edge = under (s.event0 &&& ~~~s.now.hWdata) 0 s'.edge.diagCount s'.edge := by
  obtain ⟨hsel, hwe, ha⟩ := hw
  have hedge : State.edge { s.noAccess with event0 := 0 } = clocked s { s with event0 := 0 } :=
    noAccess_edge { s with event0 := 0 }
  simp only [hedge, under_event0]
  simp [edge_eq, State.hostAccess, hsel, hwe, ha, State.hostWrite, regAt, State.writeReg, clearOnes,
    clocked]

/-- Any other host access leaves the flags, and sets some beside them (R35). -/
theorem edge_event0_kept {s : State} (hw : ¬writesTo s 0x003) :
    let s' : State := { s with event0 := 0 }
    s.edge = under s.event0 0 s'.edge.diagCount s'.edge := by
  have hs : s = under s.event0 0 s.diagCount { s with event0 := 0 } := by simp [under]
  exact (congrArg State.edge hs).trans
    (edge_under_flags { s with event0 := 0 } (fun h => absurd h hw) (fun _ => rfl))

theorem edge_event1_written {s : State} (hw : writesTo s 0x004) :
    let s' : State := { s.noAccess with event1 := 0 }
    s.edge = under 0 (s.event1 &&& ~~~s.now.hWdata) s'.edge.diagCount s'.edge := by
  obtain ⟨hsel, hwe, ha⟩ := hw
  have hedge : State.edge { s.noAccess with event1 := 0 } = clocked s { s with event1 := 0 } :=
    noAccess_edge { s with event1 := 0 }
  simp only [hedge, under_event1]
  simp [edge_eq, State.hostAccess, hsel, hwe, ha, State.hostWrite, regAt, State.writeReg, clearOnes,
    clocked]

theorem edge_event1_kept {s : State} (hw : ¬writesTo s 0x004) :
    let s' : State := { s with event1 := 0 }
    s.edge = under 0 s.event1 s'.edge.diagCount s'.edge := by
  have hs : s = under 0 s.event1 s.diagCount { s with event1 := 0 } := by simp [under]
  exact (congrArg State.edge hs).trans
    (edge_under_flags { s with event1 := 0 } (fun _ => rfl) (fun h => absurd h hw))

/-- Settles O18: the flags lie under the cycle, whose segment sees none. -/
theorem eventFlagsAreSticky : Obligations.EventFlagsAreSticky := by
  constructor <;> intro s t hr h
  · by_cases hw : writesTo s 0x003
    · rw [State.noWriteTo, if_pos hw] at h
      rw [step_under (s' := { s.noAccess with event0 := 0 }) hr hr
        (segment_unseen s _ 0 s.event1 s.diagCount) (edge_event0_written hw) h,
        under_event0, if_pos hw]
    · rw [State.noWriteTo, if_neg hw] at h
      rw [step_under (s' := { s with event0 := 0 }) hr hr
        (segment_unseen s _ 0 s.event1 s.diagCount) (edge_event0_kept hw) h,
        under_event0, if_neg hw]
  · by_cases hw : writesTo s 0x004
    · rw [State.noWriteTo, if_pos hw] at h
      rw [step_under (s' := { s.noAccess with event1 := 0 }) hr hr
        (segment_unseen s _ s.event0 0 s.diagCount) (edge_event1_written hw) h,
        under_event1, if_pos hw]
    · rw [State.noWriteTo, if_neg hw] at h
      rw [step_under (s' := { s with event1 := 0 }) hr hr
        (segment_unseen s _ s.event0 0 s.diagCount) (edge_event1_kept hw) h,
        under_event1, if_neg hw]

/-- A host write to DIAG_COUNT clears it at the edge (R49). -/
theorem edge_count_written {s : State} (hw : writesTo s 0x012) :
    s.edge = State.edge { s.noAccess with diagCount := 0 } := by
  obtain ⟨hsel, hwe, ha⟩ := hw
  have hedge : State.edge { s.noAccess with diagCount := 0 } =
      clocked s { s with diagCount := 0 } := noAccess_edge { s with diagCount := 0 }
  rw [hedge]
  simp [edge_eq, State.hostAccess, hsel, hwe, ha, State.hostWrite, regAt, State.writeReg]

/-- Any other host access leaves the count (R49). -/
theorem edge_count_kept {s : State} (hw : ¬writesTo s 0x012) :
    s.edge = { State.edge { s with diagCount := 0 } with diagCount := s.diagCount } := by
  have hs : s = under 0 0 s.diagCount { s with diagCount := 0 } := by simp [under]
  have hedge := edge_under s.diagCount { s with diagCount := 0 } (fun _ => rfl) (fun _ => rfl)
  have hw' : ¬writesTo { s with diagCount := 0 } 0x012 := hw
  rw [if_neg hw'] at hedge
  exact (congrArg State.edge hs).trans (hedge.trans (by simp [under]))

/-- A count of 0 is 0 after the clock edge. -/
theorem edge_count_zero {s : State} (h : s.diagCount = 0) : s.edge.diagCount = 0 := by
  rw [edge_diagCount_eq, State.countAfterHost, h, ite_self]

/-- Laid over a count of 0, a count shows whether the segment has counted. -/
theorem overlay_count {w : State} (u : State) (hw : w.diagCount = 0) :
    u.diagCount = 0 ∧ (overlay w u).diagCount = 0 ∨
      u.diagCount ≠ 0 ∧ (overlay w u).diagCount = 1 := by
  by_cases hu : u.diagCount = 0
  · exact .inl ⟨hu, (if_pos hu).trans hw⟩
  · exact .inr ⟨hu, (if_neg hu).trans (by rw [hw]; decide)⟩

theorem overlay_setCount (w u : State) (count : Byte) :
    overlay { w with diagCount := count } u = { overlay w u with
      diagCount := if u.diagCount = 0 then count else incSat count } := rfl

/-- Settles O19: the count lies under the cycle, whose segment counts at most once. -/
theorem diagCountClearsThenCounts : Obligations.DiagCountClearsThenCounts := by
  intro s t hr h
  by_cases hw : writesTo s 0x012
  · rw [State.noWriteTo, if_pos hw] at h
    obtain ⟨u, rfl, hu⟩ := step_overlay (s' := { s.noAccess with diagCount := 0 }) hr hr
      (segment_unseen s _ s.event0 s.event1 0) (by rw [edge_count_written hw]) h
    refine ⟨(overlay_count u (edge_count_zero rfl)).imp And.right And.right, ?_⟩
    rw [hu, if_pos hw, edge_count_written hw]
  · rw [State.noWriteTo, if_neg hw] at h
    obtain ⟨u, rfl, hu⟩ := step_overlay (s' := { s with diagCount := 0 }) hr hr
      (segment_unseen s _ s.event0 s.event1 0) (by rw [edge_count_kept hw]; rfl) h
    have hcount := overlay_count u (edge_count_zero (s := { s with diagCount := 0 }) rfl)
    refine ⟨hcount.imp And.right And.right, ?_⟩
    rw [hu, if_neg hw, edge_count_kept hw]
    rcases hcount with ⟨hzero, ht⟩ | ⟨hne, ht⟩
    · rw [overlay_setCount, if_pos hzero, if_pos ht]
    · rw [overlay_setCount, if_neg hne, if_neg (by rw [ht]; decide)]; rfl

/-! ### TX registers (R39 to R42, R60) -/

/-- The registers that a TX address names. -/
def isTx : Reg → Bool
  | .txLen | .txDest | .txByte | .txBuf _ => true
  | _ => false

/-- An address of a TX register or of a TX_BUF entry (R56). -/
abbrev txAddr (a : Addr) : Prop :=
  a.toNat = 0x008 ∨ a.toNat = 0x009 ∨ a.toNat = 0x00A ∨ (0x100 ≤ a.toNat ∧ a.toNat < 0x200)

theorem regAt_txBuf {a : Addr} (h : 0x100 ≤ a.toNat ∧ a.toNat < 0x200) :
    regAt a = .txBuf (a.toNat - 0x100) := by
  unfold regAt
  split <;> first
    | omega
    | exact if_pos h

/-- Where a TX register stands (R56). -/
def txAddress : Reg → Nat
  | .txLen => 0x008
  | .txDest => 0x009
  | .txByte => 0x00A
  | .txBuf k => 0x100 + k
  | _ => 0

/-- A TX address names the TX register that stands at it (R56). -/
theorem regAt_tx {a : Addr} (ha : txAddr a) :
    isTx (regAt a) = true ∧ txAddress (regAt a) = a.toNat := by
  rcases ha with h | h | h | h
  · obtain rfl := regAt_of_toNat h; exact ⟨rfl, rfl⟩
  · obtain rfl := regAt_of_toNat h; exact ⟨rfl, rfl⟩
  · obtain rfl := regAt_of_toNat h; exact ⟨rfl, rfl⟩
  · rw [regAt_txBuf h]; exact ⟨rfl, Nat.add_sub_of_le h.1⟩

/-- No two TX addresses name the same register. -/
theorem regAt_tx_inj {a b : Addr} (ha : txAddr a) (hb : txAddr b) :
    regAt b = regAt a ↔ b = a := by
  refine ⟨fun h => BitVec.eq_of_toNat_eq ?_, fun h => by rw [h]⟩
  rw [← (regAt_tx ha).2, ← (regAt_tx hb).2, h]

/-- A write to a TX register while BUSY = 0: that register reads as written, the others as before.
-/
theorem readReg_writeReg_tx {s : State} (hb : s.busy = false) (hwf : s.txBuf.wf = true) {r r' : Reg}
    (d : Byte) (hr : isTx r = true) (hr' : isTx r' = true)
    (hlen : ∀ k, r = .txBuf k → k < s.build.maxLen) :
    (s.writeReg r d).readReg r' = if r' = r then d else s.readReg r' := by
  cases r with
  | txLen | txDest | txByte =>
    cases r' with
    | txLen | txDest | txByte | txBuf j =>
      simp [State.writeReg, State.writeTx, hb, State.readReg, State.readTxBuf]
    | _ => cases hr'
  | txBuf k =>
    have hk := hlen k rfl
    cases r' with
    | txLen | txDest | txByte =>
      simp [State.writeReg, State.writeTxBuf, State.writeTx, hb, hk, State.readReg]
    | txBuf j =>
      by_cases hj : j = k
      · subst hj
        simp [State.writeReg, State.writeTxBuf, State.writeTx, hb, hk, State.readReg,
          State.readTxBuf, read_write_same hwf]
      · simp [State.writeReg, State.writeTxBuf, State.writeTx, hb, hk, State.readReg,
          State.readTxBuf, read_write_ne d hj, hj]
    | _ => cases hr'
  | _ => cases hr

/-- Without a pending command the poll gives a reception or nothing (R90). -/
theorem poll_of_no_pending {s : State} {i : Instr} (hpend : s.pendValid = false)
    (h : s.poll = some (.instr i)) : i = .msgReceive := by
  unfold State.poll decodeLine at h
  rw [hpend] at h
  split_ifs at h <;> simp_all

/-- While BUSY = 0 a cycle starts a reception or nothing (R90). -/
theorem segment_of_not_busy {s : State} {g : State → State} (hb : s.busy = false)
    (hg : segment s = some g) : g = id ∨ g = startOf .msgReceive s := by
  obtain ⟨hp, hpend⟩ : s.point = .idle ∧ s.pendValid = false := by simpa [State.busy] using hb
  unfold segment at hg
  rw [hp] at hg
  cases hpoll : s.poll with
  | none => rw [hpoll] at hg; cases hg; exact .inl rfl
  | some d =>
    rw [hpoll] at hg
    cases d with
    | instr i => cases hg; exact .inr (by rw [poll_of_no_pending hpend hpoll])
    | rejected e => cases hg

/-- A segment at BUSY = 0 does not see the TX registers. -/
theorem segment_tx {s : State} {g : State → State} (hb : s.busy = false)
    (hg : segment s = some g) (v : State) (txLen txDest txByte : Byte) (txBuf : Memory) :
    g { v with txLen := txLen, txDest := txDest, txByte := txByte, txBuf := txBuf } =
      { g v with txLen := txLen, txDest := txDest, txByte := txByte, txBuf := txBuf } := by
  rcases segment_of_not_busy hb hg with rfl | rfl <;> rfl

/-- Without an access the TX registers and the build stay in a cycle at BUSY = 0. -/
theorem segment_tx_passes {s : State} {g : State → State} (hb : s.busy = false)
    (hg : segment s = some g) :
    let t := g s.noAccess.edge
    t.txLen = s.txLen ∧ t.txDest = s.txDest ∧ t.txByte = s.txByte ∧ t.txBuf = s.txBuf ∧
      t.build = s.build := by
  rw [noAccess_edge]
  rcases segment_of_not_busy hb hg with rfl | rfl <;> simp [clocked]

/-- A write to a TX register while BUSY = 0 changes TX registers only (R60). -/
theorem writeReg_tx_frame {s : State} (hb : s.busy = false) {r : Reg} (d : Byte)
    (hr : isTx r = true) :
    let v := s.writeReg r d
    v = { s with txLen := v.txLen, txDest := v.txDest, txByte := v.txByte, txBuf := v.txBuf } := by
  cases r with
  | txLen | txDest | txByte => simp [State.writeReg, State.writeTx, hb]
  | txBuf k =>
    simp only [State.writeReg, State.writeTxBuf, State.writeTx, hb]
    split <;> rfl
  | _ => cases hr

/-- Reads of the TX registers depend on them and the build only. -/
theorem readReg_tx_congr {v v' : State} {r : Reg} (hr : isTx r = true)
    (hbuild : v.build = v'.build) (hlen : v.txLen = v'.txLen) (hdest : v.txDest = v'.txDest)
    (hbyte : v.txByte = v'.txByte) (hbuf : v.txBuf = v'.txBuf) : v.readReg r = v'.readReg r := by
  cases r with
  | txLen => exact hlen
  | txDest => exact hdest
  | txByte => exact hbyte
  | txBuf k => simp only [State.readReg, State.readTxBuf, hbuild, hbuf]
  | _ => cases hr

/-- The next state after a TX write at BUSY = 0: that of the cycle without it, with the TX registers
as the write leaves them. -/
theorem segment_of_tx_write {s : State} {a : Addr} {d : Byte} {g : State → State}
    (hw : s.writes a d) (hb : s.busy = false) (hg : segment s = some g)
    (htx : isTx (regAt a) = true) :
    let v := s.writeReg (regAt a) d
    g s.edge = { g s.noAccess.edge with
      txLen := v.txLen, txDest := v.txDest, txByte := v.txByte, txBuf := v.txBuf } := by
  intro v
  have hv : v = { s with
      txLen := v.txLen, txDest := v.txDest, txByte := v.txByte, txBuf := v.txBuf } :=
    writeReg_tx_frame hb d htx
  rw [edge_of_writes hw, noAccess_edge, ← segment_tx hb hg]
  exact congrArg (fun x => g (clocked s x)) hv

/-- Settles O14: at BUSY = 0 the segment passes the TX registers through. -/
theorem idleTxWriteIsStored : Obligations.IdleTxWriteIsStored := by
  intro s t a d hw hb hwf h ha
  have hr : s.now.rst = false := hw.1
  have haddr : txAddr a := ha.imp id (Or.imp id (Or.imp id fun h => ⟨h.1, h.2.1⟩))
  obtain ⟨g, hg, rfl⟩ := (step_next_iff ((noAccess_rst s).trans hr)).mp h
  rw [segment_noAccess] at hg
  obtain ⟨htx, haddress⟩ := regAt_tx haddr
  have hu := segment_of_tx_write hw hb hg htx
  obtain ⟨hlen, hdest, hbyte, hbuf, hbuild⟩ := segment_tx_passes hb hg
  have hbuf_lt (k : Nat) (hk : regAt a = .txBuf k) : k < s.build.maxLen := by
    rw [hk, txAddress] at haddress
    omega
  refine ⟨g s.edge, (step_next_iff hr).mpr ⟨g, hg, rfl⟩, fun ha => ?_, fun ha => ?_, fun ha => ?_,
    fun ha => ?_, fun b hbaddr => ?_⟩
  · obtain rfl := regAt_of_toNat ha
    rw [hu]
    simp [regAt, State.writeReg, State.writeTx, hb, hdest, hbyte, hbuf]
  · obtain rfl := regAt_of_toNat ha
    rw [hu]
    simp [regAt, State.writeReg, State.writeTx, hb, hlen, hbyte, hbuf]
  · obtain rfl := regAt_of_toNat ha
    rw [hu]
    simp [regAt, State.writeReg, State.writeTx, hb, hlen, hdest, hbuf]
  · have hreg : regAt a = .txBuf (a.toNat - 0x100) := regAt_txBuf (by omega)
    have hk := hbuf_lt _ hreg
    rw [hu, hreg]
    simp [State.writeReg, State.writeTxBuf, State.writeTx, hb, hk, hlen, hdest, hbyte]
  · obtain ⟨htxb, -⟩ := regAt_tx hbaddr
    have hread : (g s.edge).hostRead b = (s.writeReg (regAt a) d).readReg (regAt b) := by
      have hsame : (s.writeReg (regAt a) d).build = s.build := by rw [writeReg_tx_frame hb d htx]
      rw [hu]
      refine readReg_tx_congr htxb ?_ rfl rfl rfl rfl
      simp [hbuild, hsame]
    rw [hread, readReg_writeReg_tx hb hwf d htx htxb hbuf_lt]
    simp only [regAt_tx_inj haddr hbaddr, State.hostRead]

/-! ## The invariant

Its three parts: the registers, the marks of the control point, and the locals of the control point.
A cycle keeps each part by itself. -/

/-- What the invariant says of the registers, whatever runs. -/
structure Regs (s : State) : Prop where
  build_ok : s.build.wf = true
  syncs_ok : s.syncsOk
  txBuf_ok : s.txBuf.ok s.build.maxLen
  rxStore_ok : s.rxStore.ok s.build.maxLen
  framePay_ok : s.framePay.ok s.build.maxLen
  config_ok : s.config &&& 0xF8 = 0
  irqEn1_ok : s.irqEn1 &&& 0x80 = 0
  event1_ok : s.event1 &&& 0x80 = 0
  cmdResult_ok : s.cmdResult &&& 0xFE = 0
  diagLast_ok : stepCodeOk s.diagLast = true
  lastAttempts_ok : s.lastAttempts.toNat ≤ s.build.retryMax
  rxLen_ok : s.rxLen.toNat ≤ s.build.maxLen
  pendOp_ok : s.pendOp.toNat ≤ 6
  pendMsg_ok : s.pendValid = true → s.pendOp = 1 → s.txLen.toNat ≤ s.build.maxLen

/-- What the invariant says of the counter and the marks of the control point (R25, R26, R96). -/
structure Marks (s : State) : Prop where
  cnt_ok : s.cnt < s.point.limit s.build
  rxAct_ok : s.rxAct = s.point.inReceive
  txAct_ok : s.txAct = s.point.inSend
  cmdAct_ok : s.cmdAct = s.point.inCommand
  pend_ok : s.point.inCommand = true → s.pendValid = false

theorem inv_iff (s : State) : s.Inv ↔ Regs s ∧ Marks s ∧ s.point.ok s :=
  ⟨fun h => ⟨{ h with }, { h with }, h.point_ok⟩,
    fun ⟨hregs, hmarks, hok⟩ => { hregs, hmarks with point_ok := hok }⟩

/-! ### The build and the locals -/

/-- In a build of R7's values every timed statement lasts a cycle (R12). -/
theorem limit_pos {b : Build} (h : b.wf = true) (p : Point) : 0 < p.limit b := by
  simp only [Build.wf, Bool.and_eq_true, decide_eq_true_eq] at h
  obtain ⟨⟨⟨⟨⟨⟨⟨⟨⟨-, -⟩, -⟩, -⟩, hack⟩, hedge⟩, hdelay⟩, hunit⟩, hsettle⟩, -⟩ := h
  have sendByte_pos (q : SendBytePt) : 0 < q.limit b := by
    cases q <;> simp only [SendBytePt.limit] <;> omega
  have msgSend_pos (m : MsgSendAct) : 0 < m.limit b := by
    unfold MsgSendAct.limit
    cases m.pt with
    | byte a => exact sendByte_pos a.pt
    | _ => exact hdelay
  cases p with
  | idle => exact Nat.one_pos
  | phyStart | phyStop => exact hdelay
  | sendByte a => exact sendByte_pos a.pt
  | recvByte => exact hedge
  | sendMsg m => exact msgSend_pos m
  | receive q =>
    cases q with
    | relay m => exact msgSend_pos m
    | oversizeStop | stop => exact hdelay
    | oversizeSettle | settle | relayBefore | relayAfter => exact hsettle
    | _ => exact hedge

theorem retryMax_pos {b : Build} (h : b.wf = true) : 1 ≤ b.retryMax := by
  simp only [Build.wf, Bool.and_eq_true, decide_eq_true_eq] at h
  omega

/-- Two states have the same build, TX registers and FRAME: all that the locals of a control point
are held against. -/
structure SameSources (s u : State) : Prop where
  build : u.build = s.build
  txLen : u.txLen = s.txLen
  txDest : u.txDest = s.txDest
  txByte : u.txByte = s.txByte
  txBuf : u.txBuf = s.txBuf
  frameLen : u.frameLen = s.frameLen
  frameDest : u.frameDest = s.frameDest
  frameSrc : u.frameSrc = s.frameSrc
  framePay : u.framePay = s.framePay

theorem SameSources.frameCount {s u : State} (h : SameSources s u) (src : FrameSource) :
    u.frameCount src = s.frameCount src := by
  cases src <;> simp only [State.frameCount, h.txLen, h.frameLen]

theorem SameSources.frameByte {s u : State} (h : SameSources s u) (src : FrameSource) (p : Nat) :
    u.frameByte src p = s.frameByte src p := by
  unfold State.frameByte State.readTxBuf
  rw [h.build, h.txLen, h.txDest, h.txBuf, h.frameLen, h.frameDest, h.frameSrc, h.framePay]

theorem SameSources.msgSend_ok {s u : State} (h : SameSources s u) (m : MsgSendAct) :
    m.ok u ↔ m.ok s := by
  unfold MsgSendAct.ok
  simp only [h.build, h.frameCount, h.frameByte]

theorem SameSources.relayable {s u : State} (h : SameSources s u) : u.relayable ↔ s.relayable := by
  unfold State.relayable
  rw [h.build, h.frameLen, h.frameDest, h.frameSrc]

theorem SameSources.notStale {s u : State} (h : SameSources s u) : u.notStale ↔ s.notStale := by
  unfold State.notStale
  rw [h.build, h.frameDest, h.frameSrc]

/-- The locals of a control point are held against its sources only. -/
theorem SameSources.point_ok {s u : State} (h : SameSources s u) (p : Point) :
    p.ok u ↔ p.ok s := by
  cases p with
  | sendByte a => simp only [Point.ok, h.txByte]
  | sendMsg m => simp only [Point.ok, h.txLen, h.build, h.msgSend_ok]
  | receive q =>
    cases q <;> simp only [Point.ok, MsgReceivePt.ok, h.build, h.frameLen, h.notStale, h.relayable,
      h.msgSend_ok]
  | _ => exact Iff.rfl

/-! ### Regs: what a raised event, a recorded failure, and a cycle do with the registers -/

theorem Regs.raise {s : State} (h : Regs s) (e : Event) : Regs (s.raise e) := by
  have hmask : e.mask1 &&& 0x80 = 0 := by cases e <;> decide
  have hevent1 : (s.event1 ||| e.mask1) &&& 0x80 = 0 := by
    rw [BitVec.and_comm, BitVec.and_or_distrib_left, BitVec.and_comm _ s.event1,
      BitVec.and_comm _ e.mask1, h.event1_ok, hmask]
    rfl
  exact { h with event1_ok := hevent1 }

theorem sendByte_failure_ok {s : State} {q : SendBytePt} {code : Byte}
    (h : q.failure s = some code) : stepCodeOk code = true := by
  cases q with
  | clockHigh j | ackWait =>
    simp only [SendBytePt.failure, Option.ite_none_right_eq_some, Option.some.injEq] at h
    rw [← h.2]
    decide
  | _ => cases h

theorem recvByte_failure_ok {s : State} {q : RecvBytePt} {code : Byte}
    (h : q.failure s = some code) : stepCodeOk code = true := by
  rw [recvByte_failure_eq, Option.ite_none_right_eq_some, Option.some.injEq] at h
  rw [← h.2]
  have hrange := recvByte_code_range q
  simp [stepCodeOk, hrange]

theorem msgSend_failure_ok {s : State} {m : MsgSendAct} {f : Byte × Byte}
    (h : m.failure s = some f) : stepCodeOk f.1 = true := by
  unfold MsgSendAct.failure at h
  split at h
  · cases h
  · obtain ⟨c, hc, rfl⟩ := Option.map_eq_some_iff.mp h
    exact sendByte_failure_ok hc
  · cases h

/-- The step code of every failure point is one of R86. -/
theorem failure_code_ok {s : State} {p : Point} {f : Byte × Byte}
    (h : p.failure s = some f) : stepCodeOk f.1 = true := by
  cases p with
  | idle | phyStart | phyStop => cases h
  | sendByte a =>
    obtain ⟨c, hc, rfl⟩ := Option.map_eq_some_iff.mp h
    exact sendByte_failure_ok hc
  | recvByte a =>
    obtain ⟨c, hc, rfl⟩ := Option.map_eq_some_iff.mp h
    exact recvByte_failure_ok hc
  | sendMsg m => exact msgSend_failure_ok h
  | receive q =>
    cases hq : q.byte? with
    | some b =>
      rw [failure_of_byte s hq] at h
      obtain ⟨c, hc, rfl⟩ := Option.map_eq_some_iff.mp h
      exact recvByte_failure_ok hc
    | none =>
      cases q with
      | relay m => exact msgSend_failure_ok h
      | length | recipient | sender | drain | payload => cases hq
      | _ => cases h

theorem Regs.recordFailure {s w : State} (h : Regs w) (p : Point) :
    Regs (recordFailure w (p.failure s)) := by
  cases hf : p.failure s with
  | none => exact h
  | some f =>
    obtain ⟨code, pos⟩ := f
    have hcode : Regs { w with
        diagLast := code, diagPos := pos, diagCount := incSat w.diagCount } :=
      { h with diagLast_ok := failure_code_ok hf }
    simp only [Proofs.recordFailure, State.raiseFailureEvents]
    split_ifs
    · exact (hcode.raise .txByteFail).raise .prematureAck
    · exact hcode.raise .txByteFail
    · exact hcode.raise .rxTimeout
    · exact hcode

theorem Regs.endCommand {w : State} (h : Regs w) (failed : Bool) : Regs (w.endCommand failed) := by
  have hresult : zext8 failed &&& 0xFE = 0 := by cases failed <;> decide
  have hdone : Regs (State.raise { w with cmdResult := zext8 failed } .cmdDone) :=
    Regs.raise (s := { w with cmdResult := zext8 failed })
      { h with cmdResult_ok := hresult } .cmdDone
  exact { hdone with }

theorem Regs.finishReceive {w : State} (h : Regs w) : Regs w.finishReceive := { h with }

theorem Regs.sendEnded {w : State} (h : Regs w) {m : MsgSendAct} (hm : m.ok w) :
    Regs (sendEnded w m) := by
  have hlast : (BitVec.ofNat 8 m.attempt).toNat ≤ w.build.retryMax := by
    have := hm.2.1
    rw [BitVec.toNat_ofNat]
    exact (Nat.mod_le _ _).trans this
  have hraise : Regs (State.raise { w with lastAttempts := BitVec.ofNat 8 m.attempt } m.endEvent) :=
    Regs.raise (s := { w with lastAttempts := BitVec.ofNat 8 m.attempt })
      { h with lastAttempts_ok := hlast } _
  exact { hraise with }

/-- A cycle keeps the registers' part of the invariant. -/
theorem Cycle.regs {t w u : State} {p : Point} (h : Cycle t w p u) (hw : Regs w) (hp : p.ok w) :
    Regs u := by
  cases h with
  | phyStartEnd | phyStopEnd | sendByteEnd => exact hw.endCommand _
  | recvByteEnd a ack =>
    exact Regs.endCommand (w := { w with ackOut := ack, rxByte := a.acc }) { hw with } _
  | sendMsgEnd m => exact (hw.sendEnded hp.2.2).endCommand m.fail
  | staleEcho a =>
    have hraise := Regs.raise (s := { w with frameSrc := a.acc }) { hw with } .staleEcho
    exact hraise.finishReceive
  | oversizeDrain a | oversizeStop a =>
    have hraise := Regs.raise (s := { w with frameSrc := a.acc }) { hw with } .oversize
    exact { hraise with }
  | payloadNext k a | payloadEnd k a =>
    have hpay : (w.framePay.write k a.acc).ok w.build.maxLen :=
      ⟨write_wf hw.framePay_ok.1 _ _, write_within _ hw.framePay_ok.2 (lt_of_lt_of_le hp.2.1 hp.1)⟩
    exact { hw with framePay_ok := hpay }
  | deliver =>
    have hstore : (w.framePay.copy w.build.maxLen w.rxStore).ok w.build.maxLen :=
      ⟨copy_wf hw.rxStore_ok.1 _, copy_within hw.rxStore_ok.2 le_rfl⟩
    have hdel : Regs w.deliver := { hw with rxLen_ok := hp.1, rxStore_ok := hstore }
    exact (hdel.raise .msgDelivered).finishReceive
  | drop => exact (hw.raise .msgDropped).finishReceive
  | relayBracket m =>
    have hended := hw.sendEnded hp.2.2
    exact { hended with }
  | relayEnd m => exact ((hw.sendEnded hp.2.2).raise .msgRelayed).finishReceive
  | relayAfterEnd => exact (hw.raise .msgRelayed).finishReceive
  | _ => exact { hw with }

/-! ### Marks and locals -/

@[simp] theorem inCommand_idle : Point.idle.inCommand = false := rfl
@[simp] theorem inCommand_phyStart (q : PhyStartPt) : (Point.phyStart q).inCommand = true := rfl
@[simp] theorem inCommand_phyStop (q : PhyStopPt) : (Point.phyStop q).inCommand = true := rfl
@[simp] theorem inCommand_sendByte (a : SendByteAct) : (Point.sendByte a).inCommand = true := rfl
@[simp] theorem inCommand_recvByte (a : RecvByteAct) : (Point.recvByte a).inCommand = true := rfl
@[simp] theorem inCommand_sendMsg (m : MsgSendAct) : (Point.sendMsg m).inCommand = true := rfl
@[simp] theorem inCommand_receive (q : MsgReceivePt) : (Point.receive q).inCommand = false := rfl

/-- A cycle keeps the marks' part of the invariant. -/
theorem Cycle.marks {t w u : State} {p : Point} (h : Cycle t w p u) (hwf : w.build.wf = true)
    (hbuild : t.build = w.build) (hw : Marks w) (hp : w.point = p) : Marks u := by
  obtain ⟨-, hrx, htx, hcmd, hpend⟩ := hw
  rw [hp] at hrx htx hcmd hpend
  have hpos (q : Point) : 0 < q.limit w.build := limit_pos hwf q
  cases h with
  | tick hne hcnt =>
    exact ⟨by simpa [hp, hbuild] using hcnt, by simpa [hp], by simpa [hp], by simpa [hp],
      by simpa [hp]⟩
  | byteWait q a pos a' ack hq =>
    cases q <;> cases hq <;> constructor <;> simp_all [Point.inReceive, Point.inSend, atByte]
  | oversizeNext p q' dat hq | stopNext p q' dat hq =>
    rcases hq with ⟨p', rfl⟩ | rfl <;> constructor <;> simp_all [Point.inReceive, Point.inSend]
  | relayStart q hq =>
    rcases hq with rfl | ⟨rfl, -⟩ <;> constructor <;> simp_all [Point.inReceive, Point.inSend]
  | _ => constructor <;> simp_all [Point.inReceive, Point.inSend]

/-- A message of another node that is not for this one is one to relay (R135). -/
theorem relayable_of_settled {w : State} (hok : (MsgReceivePt.settle).ok w)
    (hdest : w.frameDest ≠ w.build.nodeId) (hpos : 0 < w.frameLen.toNat) : w.relayable := by
  obtain ⟨hlen, hns⟩ := hok
  exact ⟨hdest, fun hsrc => hns ⟨hsrc, hdest⟩, hpos, hlen⟩

/-- A cycle keeps the locals' part of the invariant. -/
theorem Cycle.point_ok {t w u : State} {p : Point} (h : Cycle t w p u) (hw : Regs w)
    (hsrc : SameSources t w) (hp : w.point = p) (hok : p.ok w) : u.point.ok u := by
  have goes_on {m m' : MsgSendAct} (hgo : m.ok t → m'.ok t) (hm : m.ok w) : m'.ok w :=
    (hsrc.msgSend_ok m').mpr (hgo ((hsrc.msgSend_ok m).mp hm))
  cases h with
  | tick hne hcnt =>
    have hsame : SameSources w (t.tick w) := ⟨rfl, rfl, rfl, rfl, rfl, rfl, rfl, rfl, rfl⟩
    rw [tick_point, hp]
    exact (hsame.point_ok p).mpr hok
  | phyStart | phyStop | recvByte | length | recipient => trivial
  | phyStartEnd | phyStopEnd | sendByteEnd | recvByteEnd | sendMsgEnd => trivial
  | staleEcho | oversizeEnd | deliver | drop | relayEnd | relayAfterEnd => trivial
  | sendByte => exact hok
  | sendMsg m m' clk dat hms hgo =>
    obtain ⟨hlen, htx, hm⟩ := hok
    have hsame : SameSources w
        (State.enter { w with clkOut := clk, datOut := dat } (.sendMsg m')) :=
      ⟨rfl, rfl, rfl, rfl, rfl, rfl, rfl, rfl, rfl⟩
    exact ⟨hlen, hms.trans htx, (hsame.msgSend_ok m').mpr (goes_on hgo hm)⟩
  | byteWait q a pos a' ack hq => cases q <;> cases hq <;> exact hok
  | oversizeDrain a hns hlen => exact ⟨hlen, Nat.zero_lt_of_lt hlen, hns⟩
  | oversizeStop a ack hns hlen => exact ⟨hlen, hns⟩
  | fits a hns hlen hpos => exact ⟨hlen, hpos, hns⟩
  | empty a ack hns hlen => exact ⟨hlen, hns⟩
  | drainNext k a hk | payloadNext k a hk => exact ⟨hok.1, hk, hok.2.2⟩
  | drainEnd | payloadEnd => exact ⟨hok.1, hok.2.2⟩
  | oversizeNext p q' dat hq | stopNext p q' dat hq => rcases hq with ⟨p', rfl⟩ | rfl <;> exact hok
  | bracket hdest hpos => exact relayable_of_settled hok hdest hpos
  | relayStart q hq =>
    have hrelay : w.relayable := by
      rcases hq with rfl | ⟨rfl, hdest, hpos⟩
      · exact hok
      · exact relayable_of_settled hok hdest hpos
    exact ⟨hrelay, rfl, le_rfl, retryMax_pos hw.build_ok, rfl, rfl⟩
  | relay m m' clk dat hms hgo =>
    obtain ⟨hrelay, hframe, hm⟩ := hok
    have hsame : SameSources w
        (State.enter { w with clkOut := clk, datOut := dat } (.receive (.relay m'))) :=
      ⟨rfl, rfl, rfl, rfl, rfl, rfl, rfl, rfl, rfl⟩
    exact ⟨hrelay, hms.trans hframe, (hsame.msgSend_ok m').mpr (goes_on hgo hm)⟩
  | relayBracket => exact hok.1

/-! ### The clock edge and the host's write -/

theorem decodeOp_legal {op : BitVec 4} {i : Instr} (h : decodeOp op = .instr i) :
    op.toNat ≤ 6 ∧ (op = 1 → i = .sendMsg) := by
  unfold decodeOp at h
  split at h <;> cases h <;> (rename_i hop; exact ⟨by omega, by rintro rfl; revert hop; decide⟩)

/-- A legal command word has a legal opcode, and SEND_MSG's is 1 (R73). -/
theorem decodeCmd_legal {d : Byte} {i : Instr} (h : decodeCmd d = .instr i) :
    (cmdOp d).toNat ≤ 6 ∧ (cmdOp d = 1 → i = .sendMsg) := by
  unfold decodeCmd at h
  split at h
  · exact decodeOp_legal h
  · cases h

theorem busy_of_point {s : State} (h : s.point ≠ .idle) : s.busy = true := by
  simp [State.busy, h]

/-- A host write keeps the registers' part of the invariant. -/
theorem Regs.writeReg {s : State} (h : Regs s) (r : Reg) (d : Byte) : Regs (s.writeReg r d) := by
  have writeTx {s' : State} (hs' : s.pendValid = false → Regs s') : Regs (s.writeTx s') := by
    rcases writeTx_cases s s' with ⟨-, e⟩ | ⟨hb, e⟩ <;> rw [e]
    · exact h.raise .wrIgnored
    · have hidle : s.point = .idle ∧ s.pendValid = false := by simpa [State.busy] using hb
      exact hs' hidle.2
  cases r with
  | cmd =>
    rcases writeCmd_cases s d with ⟨-, e⟩ | ⟨-, e⟩ | ⟨-, ⟨i, hi, hlen⟩, e⟩ <;>
      simp only [State.writeReg, e]
    · exact h.raise .cmdRejected
    · exact h.raise .cmdIllegal
    · obtain ⟨hop, hmsg⟩ := decodeCmd_legal hi
      exact { h with pendOp_ok := hop, pendMsg_ok := fun _ hone => hlen (hmsg hone) }
  | txLen =>
    exact writeTx fun hv => { h with pendMsg_ok := fun hv' => absurd (hv.symm.trans hv') nofun }
  | txDest => exact writeTx fun _ => { h with }
  | txByte => exact writeTx fun _ => { h with }
  | txBuf k =>
    simp only [State.writeReg, State.writeTxBuf]
    split
    · rename_i hk
      exact writeTx fun _ =>
        { h with txBuf_ok := ⟨write_wf h.txBuf_ok.1 k d, write_within d h.txBuf_ok.2 hk⟩ }
    · exact h
  | event0 | irqEn0 | diagCount => exact { h with }
  | event1 =>
    have hevent1 : clearOnes s.event1 d &&& 0x80 = 0 := by
      rw [clearOnes, BitVec.and_assoc, BitVec.and_comm (~~~d), ← BitVec.and_assoc, h.event1_ok]
      exact BitVec.zero_and
    exact { h with event1_ok := hevent1 }
  | irqEn1 =>
    have hmask : d &&& 0x7F &&& 0x80 = 0 := by rw [BitVec.and_assoc]; exact BitVec.and_zero
    exact { h with irqEn1_ok := hmask }
  | config =>
    have hmask : d &&& 0x07 &&& 0xF8 = 0 := by rw [BitVec.and_assoc]; exact BitVec.and_zero
    exact { h with config_ok := hmask }
  | _ => exact h

theorem Regs.edge {s : State} (h : Regs s) : Regs s.edge := by
  have haccess : Regs s.hostAccess := by
    unfold State.hostAccess
    split
    · exact h.writeReg _ _
    · exact h
  have hsyncs : s.edge.syncsOk := by
    obtain ⟨hd, hclk, hdat, hack⟩ := h.syncs_ok
    simp [State.syncsOk, hd, hclk, hdat, hack]
  exact { haccess with syncs_ok := hsyncs }

theorem Marks.edge {s : State} (h : Marks s) : Marks s.edge := by
  obtain ⟨hcnt, hrx, htx, hcmd, hpend⟩ := h
  refine ⟨by simpa using hcnt, by simpa using hrx, by simpa using htx, by simpa using hcmd,
    fun hin => ?_⟩
  rw [edge_point] at hin
  have hne : s.point ≠ .idle := by intro hp; rw [hp] at hin; cases hin
  obtain ⟨-, -, -, -, hvalid, -⟩ := hostAccess_of_busy s (busy_of_point hne)
  rw [edge_pendValid, hvalid]
  exact hpend hin

/-- While the block is BUSY the clock edge leaves the sources of a control point alone (R60). -/
theorem sameSources_edge {s : State} (hb : s.busy = true) : SameSources s s.edge := by
  obtain ⟨hlen, hdest, hbyte, hbuf, -, -⟩ := hostAccess_of_busy s hb
  exact ⟨by simp, hlen, hdest, hbyte, hbuf, by simp, by simp, by simp, by simp⟩

/-! ### The start of an operation -/

/-- A command is fetched from the latch. -/
theorem poll_command {s : State} {i : Instr} (h : s.poll = some (.instr i)) (hi : i ≠ .msgReceive) :
    s.pendValid = true ∧ decodeOp s.pendOp = .instr i := by
  unfold State.poll decodeLine at h
  have hword (op : BitVec 4) : decodeCmd (0#4 ++ op) = decodeOp op := by
    have hrsv : cmdRsv (0#4 ++ op) = 0#4 := by revert op; decide
    have hop : cmdOp (0#4 ++ op) = op := by revert op; decide
    rw [decodeCmd, if_pos hrsv, hop]
  rw [hword] at h
  split_ifs at h <;> simp_all

/-- The start of an operation keeps the registers' part of the invariant. -/
theorem startOf_regs {t w : State} (i : Instr) (hw : Regs w) : Regs (startOf i t w) := by
  have hbegin : Regs w.beginCommand := { hw with pendMsg_ok := nofun }
  have hidle : Regs w.beginCommand.linesIdle := { hbegin with }
  have hstart : Regs (w.raise .startSeen) := hw.raise .startSeen
  cases i with
  | nop => exact hbegin.endCommand false
  | linesIdle => exact hidle.endCommand false
  | msgReceive => exact { hstart with }
  | _ => exact { hbegin with }

/-- The start of an operation keeps the marks' part of the invariant. -/
theorem startOf_marks {t w : State} (i : Instr) (hwf : w.build.wf = true) (hw : Marks w)
    (hp : w.point = .idle) : Marks (startOf i t w) := by
  obtain ⟨-, hrx, htx, hcmd, hpend⟩ := hw
  rw [hp] at hrx htx hcmd hpend
  have hpos (q : Point) : 0 < q.limit w.build := limit_pos hwf q
  cases i <;> constructor <;> simp_all [Point.inReceive, Point.inSend]

/-- The locals at the start of an operation. -/
theorem startOf_point_ok {s : State} {i : Instr} (hs : s.Inv) (hpoll : s.poll = some (.instr i)) :
    (startOf i s s.edge).point.ok (startOf i s s.edge) := by
  cases i with
  | nop | linesIdle | phyStart | phyStop | recvByte | msgReceive => trivial
  | sendByte =>
    have hbusy : s.busy = true := by simp [State.busy, (poll_command hpoll nofun).1]
    exact (sameSources_edge hbusy).txByte.symm
  | sendMsg =>
    obtain ⟨hvalid, hop⟩ := poll_command hpoll nofun
    have hbusy : s.busy = true := by simp [State.busy, hvalid]
    have hone : s.pendOp = 1 := by
      revert hop
      generalize s.pendOp = op
      revert op
      decide
    obtain ⟨hbuild, hlen, -⟩ := sameSources_edge hbusy
    have hfits : s.edge.txLen.toNat ≤ s.edge.build.maxLen := by
      rw [hlen, hbuild]
      exact hs.pendMsg_ok hvalid hone
    have hretry : 1 ≤ s.edge.build.retryMax := by
      rw [hbuild]
      exact retryMax_pos hs.build_ok
    exact ⟨hfits, rfl, le_rfl, hretry, rfl, rfl⟩

/-- Settles O46: field by field, with no more of the build than that R7 allows it. -/
theorem resetSatisfiesTheInvariant : Obligations.ResetSatisfiesTheInvariant := by
  have reset_inv (b : Build) (xs : List Input) (hb : b.wf = true) : (State.resetOf b xs).Inv := by
    have hsync : 1 ≤ b.syncStages := by
      simp only [Build.wf, Bool.and_eq_true, decide_eq_true_eq] at hb
      omega
    exact
      { build_ok := hb
        syncs_ok := ⟨hsync, List.length_replicate, List.length_replicate, List.length_replicate⟩
        txBuf_ok := ⟨rfl, rfl⟩
        rxStore_ok := ⟨rfl, rfl⟩
        framePay_ok := ⟨rfl, rfl⟩
        config_ok := (by decide : (0x05 : Byte) &&& 0xF8 = 0)
        irqEn1_ok := BitVec.zero_and
        event1_ok := BitVec.zero_and
        cmdResult_ok := BitVec.zero_and
        diagLast_ok := rfl
        lastAttempts_ok := Nat.zero_le _
        rxLen_ok := Nat.zero_le _
        cnt_ok := Nat.one_pos
        rxAct_ok := rfl
        txAct_ok := rfl
        cmdAct_ok := rfl
        pend_ok := nofun
        pendOp_ok := Nat.zero_le _
        pendMsg_ok := nofun
        point_ok := trivial }
  exact ⟨reset_inv _ _ (by decide), reset_inv⟩

/-- The clock edge of a cycle in which no operation runs keeps the invariant. -/
theorem edge_inv {s : State} (h : s.Inv) : s.edge.Inv := by
  obtain ⟨hregs, hmarks, hok⟩ := (inv_iff s).mp h
  refine (inv_iff s.edge).mpr ⟨hregs.edge, hmarks.edge, ?_⟩
  rw [edge_point]
  by_cases hp : s.point = .idle
  · rw [hp]; trivial
  · exact ((sameSources_edge (busy_of_point hp)).point_ok _).mpr hok

/-- The cycle of a running operation keeps the invariant. -/
theorem running_inv {s t : State} (h : s.Inv) (hp : s.point ≠ .idle)
    (hc : Cycle s (recordFailure s.edge (s.point.failure s)) s.point t) : t.Inv := by
  obtain ⟨hregs, hmarks, hok⟩ := (inv_iff s.edge).mp (edge_inv h)
  have hregs' := hregs.recordFailure (s := s) s.point
  obtain ⟨e0, e1, code, pos, count, hframe⟩ := recordFailure_frame s.edge (s.point.failure s)
  rw [hframe] at hc hregs'
  have hsrc : SameSources s { s.edge with
      event0 := e0, event1 := e1, diagLast := code, diagPos := pos, diagCount := count } := by
    obtain ⟨hb, hl, hd, hy, hbuf, fl, fd, fs, fp⟩ := sameSources_edge (busy_of_point hp)
    exact ⟨hb, hl, hd, hy, hbuf, fl, fd, fs, fp⟩
  have hpoint := edge_point s
  refine (inv_iff t).mpr ⟨hc.regs hregs' ((hsrc.point_ok _).mpr h.point_ok), ?_, ?_⟩
  · exact hc.marks hregs'.build_ok hsrc.build.symm { hmarks with } hpoint
  · exact hc.point_ok hregs' hsrc hpoint ((hsrc.point_ok _).mpr h.point_ok)

/-- Settles O45: reset, the running operation, the idle cycle and the start of an operation each
keep the invariant. -/
theorem stepKeepsTheInvariant : Obligations.StepKeepsTheInvariant := by
  intro s t h hstep
  cases hr : s.now.rst with
  | true =>
    rw [step, if_pos hr] at hstep
    cases hstep
    exact ⟨resetSatisfiesTheInvariant.2 s.build s.inputs.tail h.build_ok, rfl⟩
  | false =>
    refine ⟨?_, (step_environment hr hstep).1⟩
    rcases step_cycle_cases hr hstep with ⟨hp, hc⟩ | ⟨-, rfl⟩ | ⟨hp, i, hpoll, rfl⟩
    · exact running_inv h hp hc
    · exact edge_inv h
    · obtain ⟨hregs, hmarks, -⟩ := (inv_iff s.edge).mp (edge_inv h)
      exact (inv_iff _).mpr ⟨startOf_regs i hregs,
        startOf_marks i hregs.build_ok hmarks ((edge_point s).trans hp), startOf_point_ok h hpoll⟩

/-! ## Reset values, STATUS and LINES (R32, R51, R53) -/

/-- A synchroniser after reset shows 1. -/
theorem getLastD_replicate_true (n : Nat) : (List.replicate n true).getLastD true = true := by
  cases n with
  | zero => rfl
  | succ n => simp [List.replicate_succ']

/-- Settles O8: each register is read off `State.resetOf`; LINES needs the synchronisers at 1. -/
theorem resetValues : Obligations.ResetValues := by
  intro b xs s
  have hlines : s.linesReg = 0x3F := by
    have hci : s.ci = true := getLastD_replicate_true b.syncStages
    have hdi : s.di = true := getLastD_replicate_true b.syncStages
    have hai : s.ai = true := getLastD_replicate_true b.syncStages
    rw [State.linesReg, hci, hdi, hai]
    have hbits : bitAt 0 true ||| bitAt 1 true ||| bitAt 2 true ||| bitAt 3 true |||
        bitAt 4 true ||| bitAt 5 true = 0x3F := by decide
    exact hbits
  have hirq : s.irq = false := by simp [s, State.irq, State.resetOf]
  have hstatus : s.status = 0 := by
    have hbusy : s.busy = false := rfl
    have hbits : bitAt 0 false ||| bitAt 1 false ||| bitAt 2 false ||| bitAt 3 false |||
        bitAt 4 false ||| bitAt 5 false = 0 := by decide
    rw [State.status, hbusy, hirq]
    exact hbits
  have hsyncs : ∀ x ∈ s.clkSync ++ s.datSync ++ s.ackSync, x = true := by
    simp +contextual [s, State.resetOf]
  refine ⟨⟨rfl, rfl, rfl⟩, hsyncs, rfl, rfl, rfl, rfl, rfl, rfl, rfl, rfl, rfl, rfl, rfl,
    fun _ => rfl, fun _ => rfl, hirq, rfl, rfl, hlines, rfl, rfl,
    fun r hid hconfig hl hmax hretry => ?_⟩
  cases r with
  | id => exact absurd rfl hid
  | status => exact hstatus
  | config => exact absurd rfl hconfig
  | lines => exact absurd rfl hl
  | paramMaxLen => exact absurd rfl hmax
  | paramRetry => exact absurd rfl hretry
  | txBuf k => exact ite_self 0
  | rxBuf k => exact ite_self 0
  | _ => rfl

/-- A byte put together from six bits shows each of them, and 0 in its two high bits. -/
theorem six_bits (b0 b1 b2 b3 b4 b5 : Bool) :
    let b := bitAt 0 b0 ||| bitAt 1 b1 ||| bitAt 2 b2 ||| bitAt 3 b3 ||| bitAt 4 b4 ||| bitAt 5 b5
    b.getLsbD 0 = b0 ∧ b.getLsbD 1 = b1 ∧ b.getLsbD 2 = b2 ∧ b.getLsbD 3 = b3 ∧
      b.getLsbD 4 = b4 ∧ b.getLsbD 5 = b5 ∧ b.getLsbD 6 = false ∧ b.getLsbD 7 = false := by
  revert b0 b1 b2 b3 b4 b5
  decide

/-- Settles O17: both registers are put together from six bits. -/
theorem statusAndLinesShowTheBlock : Obligations.StatusAndLinesShowTheBlock := by
  intro s
  refine ⟨?_, six_bits s.clkOut s.datOut s.ackOut s.ci s.di s.ai⟩
  obtain ⟨hbusy, hpend, hrx, htx, hcmd, hirq, hhigh⟩ :=
    six_bits s.busy s.pendValid s.rxAct s.txAct s.cmdAct s.irq
  refine ⟨?_, hpend, hrx, htx, hcmd, ?_, hhigh⟩
  · exact (Bool.eq_iff_iff.mp hbusy).trans (by simp [State.busy])
  · exact (Bool.eq_iff_iff.mp hirq).trans (by simp [State.irq])

end Sys2Proof.Proofs

/-! ## Accesses without effect (R57, R58)

A step sees the host's access in its clock edge only. So an access that leaves the clock edge as it
is without the access, or as with other data, leaves the step too. -/

namespace Sys2Proof.Proofs
open Sys2Proof.Machine Sys2Proof.Laws

/-- The outcome of a cycle without reset: its segment over the state `w` after the clock edge, or
the refusal of the reserved opcode `op`. -/
def outcomeOf (op : BitVec 4) (w : State) : Option (State → State) →
    Host.Outcome State Fault Refusal
  | some g => .next (g w)
  | none => .refused (.reservedOpcode op)

theorem step_eq_outcomeOf {s : State} (hr : s.now.rst = false) :
    step s = outcomeOf s.pendOp s.edge (segment s) := by
  by_cases hp : s.point = .idle
  · cases hpoll : s.poll with
    | none => simp [outcomeOf, segment, step, hr, hp, fetch_of_idle hp, hpoll, State.idleCycle]
    | some d =>
      cases d <;> simp [outcomeOf, segment, step, hr, hp, fetch_of_idle hp, hpoll, exec_eq,
        operate_of_idle _ hp]
  · simp [outcomeOf, segment_of_running hp, step_of_running hr hp]

/-- Beside `rst`, a step depends on the inputs of its cycle through the clock edge only. -/
theorem step_withInput {s : State} {x : Input} (hrst : x.rst = s.now.rst)
    (hedge : s.now.rst = false → State.edge { s with inputs := x :: s.inputs.tail } = s.edge) :
    step { s with inputs := x :: s.inputs.tail } = step s := by
  cases hr : s.now.rst with
  | true =>
    have hr' : x.rst = true := hrst.trans hr
    exact (if_pos hr').trans (if_pos hr).symm
  | false =>
    have hseg := segment_unseen s (x :: s.inputs.tail) s.event0 s.event1 s.diagCount
    have hr' : x.rst = false := hrst.trans hr
    rw [step_eq_outcomeOf hr, step_eq_outcomeOf (by exact hr'), hedge hr, hseg]

/-- An access that changes no register leaves the step as it is without the access. -/
theorem step_of_no_effect {s : State} (h : s.now.rst = false → s.hostAccess = s) :
    step s = step s.noAccess :=
  (step_withInput (x := { s.now with hSel := false }) rfl fun hr =>
    (noAccess_edge s).trans (by rw [edge_eq, h hr])).symm

/-- Settles O9: only a write changes a register, and `h_rdata` is defined by the access. -/
theorem hostReadHasNoSideEffect : Obligations.HostReadHasNoSideEffect := by
  intro s
  refine ⟨fun hwe => ?_, fun hrst hsel hwe => ?_, fun h => ?_⟩
  · exact step_of_no_effect fun _ => hostAccess_of_no_write s (by simp [hwe])
  · simp [State.hRdata, hrst, hsel, hwe]
  · rcases h with h | h | h <;> simp [State.hRdata, h]

/-! ### Writes that are not performed (R57, R60) -/

/-- Raising an event lays its bits under the flags. -/
theorem raise_eq_under (v : State) (e : Event) :
    v.raise e = under e.mask0 e.mask1 v.diagCount v := by
  simp [under, State.raise, BitVec.or_comm]

/-- A write that only raises an event adds it to what the cycle does without the write. -/
theorem step_of_raising_write {s t : State} {a : Addr} {d : Byte} {e : Event} (hw : s.writes a d)
    (hraise : s.writeReg (regAt a) d = s.raise e) (h : step s.noAccess = .next t) :
    step s = .next (t.raise e) := by
  have hr : s.now.rst = false := hw.1
  have hedge : s.edge = under e.mask0 e.mask1 s.noAccess.edge.diagCount s.noAccess.edge := by
    rw [edge_of_writes hw, hraise, noAccess_edge, raise_eq_under]
    rfl
  rw [raise_eq_under]
  exact step_under hr ((noAccess_rst s).trans hr) (segment_noAccess s) hedge h

/-- A write that changes no register leaves the step as it is without the write. -/
theorem step_of_ignored_write {s : State} {a : Addr} {d : Byte} (hw : s.writes a d)
    (hignored : s.writeReg (regAt a) d = s) : step s = step s.noAccess := by
  obtain ⟨-, hsel, hwe, rfl, rfl⟩ := hw
  have haccess : s.hostAccess = s := by
    simpa [State.hostAccess, hsel, hwe, State.hostWrite] using hignored
  exact step_of_no_effect fun _ => haccess

/-- While BUSY a write to a TX register sets WR_IGNORED instead (R60). -/
theorem writeReg_tx_of_busy {s : State} (hb : s.busy = true) {r : Reg} (d : Byte)
    (hr : isTx r = true) (hlen : ∀ k, r = .txBuf k → k < s.build.maxLen) :
    s.writeReg r d = s.raise .wrIgnored := by
  cases r with
  | txLen | txDest | txByte => exact if_pos hb
  | txBuf k => exact (if_pos (hlen k rfl)).trans (if_pos hb)
  | _ => cases hr

/-- A write to a TX_BUF entry at or above `MAX_LEN` is ignored, BUSY or not (R57, R60). -/
theorem writeReg_txBuf_outside {s : State} {k : Nat} (d : Byte) (hk : s.build.maxLen ≤ k) :
    s.writeReg (.txBuf k) d = s := if_neg (not_lt.mpr hk)

/-- Settles O13: below `MAX_LEN` the write raises WR_IGNORED, from there on it does nothing. -/
theorem busyTxWriteIsIgnored : Obligations.BusyTxWriteIsIgnored := by
  intro s t a d hw hb h
  refine ⟨fun ha => ?_, fun ⟨hlo, hhi, hk⟩ => ?_⟩
  · have haddr : txAddr a := ha.imp id (Or.imp id (Or.imp id fun h => ⟨h.1, h.2.1⟩))
    obtain ⟨htx, haddress⟩ := regAt_tx haddr
    refine step_of_raising_write hw (writeReg_tx_of_busy hb d htx fun k hreg => ?_) h
    rw [hreg, txAddress] at haddress
    omega
  · rw [← h]
    refine step_of_ignored_write hw ?_
    rw [regAt_txBuf ⟨hlo, hhi⟩, writeReg_txBuf_outside d hk]

/-! ### Reserved and read-only addresses, reserved bits (R57) -/

/-- Above the single registers: the two buffers, and reserved addresses around them (R56). -/
theorem regAt_of_ge {a : Addr} (h : 0x017 ≤ a.toNat) :
    regAt a =
      if 0x100 ≤ a.toNat ∧ a.toNat < 0x200 then .txBuf (a.toNat - 0x100)
      else if 0x200 ≤ a.toNat ∧ a.toNat < 0x300 then .rxBuf (a.toNat - 0x200)
      else .reserved := by
  unfold regAt
  split
  case h_24 => rfl
  all_goals omega

theorem regAt_rxBuf {a : Addr} (h : 0x200 ≤ a.toNat ∧ a.toNat < 0x300) :
    regAt a = .rxBuf (a.toNat - 0x200) := by
  rw [regAt_of_ge (by omega), if_neg (by omega), if_pos h]

theorem regAt_reserved {a : Addr}
    (h : (0x017 ≤ a.toNat ∧ a.toNat ≤ 0x0FF) ∨ 0x300 ≤ a.toNat) : regAt a = .reserved := by
  rw [regAt_of_ge (by omega), if_neg (by omega), if_neg (by omega)]

/-- The registers that a host write leaves alone, a buffer entry aside (R56, R57). -/
def isReadOnly : Reg → Bool
  | .id | .status | .rxByte | .rxLen | .rxDest | .rxSrc | .cmdResult | .diagLast | .diagPos
  | .lastAttempts | .lines | .paramMaxLen | .paramRetry | .rxBuf _ | .reserved => true
  | _ => false

theorem writeReg_readOnly (s : State) {r : Reg} (d : Byte) (h : isReadOnly r = true) :
    s.writeReg r d = s := by
  cases r with
  | cmd | event0 | event1 | irqEn0 | irqEn1 | config => cases h
  | txLen | txDest | txByte | txBuf | diagCount => cases h
  | _ => rfl

/-- The read-only and the reserved addresses (R56, R57). -/
theorem isReadOnly_regAt {a : Addr}
    (h : a.toNat = 0x000 ∨ a.toNat = 0x002 ∨ (0x00B ≤ a.toNat ∧ a.toNat ≤ 0x011) ∨
      (0x013 ≤ a.toNat ∧ a.toNat ≤ 0x0FF) ∨ 0x200 ≤ a.toNat) : isReadOnly (regAt a) = true := by
  by_cases hsmall : a.toNat < 0x017
  · have single : ∀ n < 0x017, n ≠ 0x001 → (n < 0x003 ∨ 0x00B ≤ n) → n ≠ 0x012 →
        isReadOnly (regAt (BitVec.ofNat 10 n)) = true := by decide
    rw [regAt_of_toNat (a := a) rfl]
    exact single a.toNat hsmall (by omega) (by omega) (by omega)
  · by_cases hrx : 0x200 ≤ a.toNat ∧ a.toNat < 0x300
    · rw [regAt_rxBuf hrx]; rfl
    · rw [regAt_reserved (by omega)]; rfl

/-- The bits of STATUS and LINES above the six that are defined read 0 (R32, R51). -/
theorem six_bits_reserved (b0 b1 b2 b3 b4 b5 : Bool) :
    (bitAt 0 b0 ||| bitAt 1 b1 ||| bitAt 2 b2 ||| bitAt 3 b3 ||| bitAt 4 b4 ||| bitAt 5 b5) &&&
      0xC0 = 0 := by
  revert b0 b1 b2 b3 b4 b5
  decide

/-- A written 1 at a flag that is 0 clears nothing (R35). -/
theorem clearOnes_masked {x : Byte} (d : Byte) (hx : x &&& 0x80 = 0) :
    clearOnes x (d &&& 0x7F) = clearOnes x d := by
  have hnot : ~~~(0x7F : Byte) = 0x80 := by decide
  rw [clearOnes, clearOnes, BitVec.not_and, hnot, BitVec.and_or_distrib_left, hx]
  exact BitVec.or_zero

/-- The registers with writable and reserved bits: their writable bits (R33, R34, R38). -/
def writableBits : Reg → Option Byte
  | .event1 | .irqEn1 => some 0x7F
  | .config => some 0x07
  | _ => none

/-- Reserved bits ignore what is written to them (R57). -/
theorem writeReg_writableBits {s : State} (hs : s.Inv) {r : Reg} {mask : Byte} (d : Byte)
    (hr : writableBits r = some mask) : s.writeReg r (d &&& mask) = s.writeReg r d := by
  cases r with
  | event1 =>
    cases hr
    simp only [State.writeReg, clearOnes_masked d hs.event1_ok]
  | irqEn1 | config =>
    cases hr
    simp only [State.writeReg, BitVec.and_assoc, BitVec.and_self]
  | _ => cases hr

theorem writableBits_regAt {a : Addr} {mask : Byte}
    (h : (a.toNat = 0x004 ∧ mask = 0x7F) ∨ (a.toNat = 0x006 ∧ mask = 0x7F) ∨
      (a.toNat = 0x007 ∧ mask = 0x07)) : writableBits (regAt a) = some mask := by
  rcases h with ⟨ha, rfl⟩ | ⟨ha, rfl⟩ | ⟨ha, rfl⟩ <;> (obtain rfl := regAt_of_toNat ha; rfl)

/-- A write to a register with reserved bits does not see the inputs. -/
theorem writeReg_withInputs (s : State) (xs : List Input) {r : Reg} {mask : Byte} (d : Byte)
    (hr : writableBits r = some mask) :
    State.writeReg { s with inputs := xs } r d = { s.writeReg r d with inputs := xs } := by
  cases r with
  | event1 | irqEn1 | config => rfl
  | _ => cases hr

/-- A write of the writable bits alone is the write of the whole byte (R57). -/
theorem edge_of_masked_write {s : State} {a : Addr} {d mask : Byte} (hs : s.Inv)
    (hw : s.writes a d) (hmask : writableBits (regAt a) = some mask) :
    State.edge { s with inputs := { s.now with hWdata := d &&& mask } :: s.inputs.tail } =
      s.edge := by
  have hw' : State.writes { s with
      inputs := { s.now with hWdata := d &&& mask } :: s.inputs.tail } a (d &&& mask) :=
    ⟨hw.1, hw.2.1, hw.2.2.1, hw.2.2.2.1, rfl⟩
  rw [edge_of_writes hw, edge_of_writes hw', writeReg_withInputs s _ _ hmask,
    writeReg_writableBits hs d hmask]
  rfl

/-- Settles O16: reads off the address map, reserved bits off the registers, and the writes off what
`writeReg` does at their addresses. -/
theorem reservedAndReadOnlyAccesses : Obligations.ReservedAndReadOnlyAccesses := by
  refine ⟨fun s a ha => ?_, fun s hs => ?_, fun s a d mask hs hw hmask => ?_,
    fun s a d hw ha => ?_⟩
  · rcases ha with ha | ha | ha | ⟨hlo, hhi, hk⟩ | ⟨hlo, hhi, hk⟩
    · obtain rfl := regAt_of_toNat ha
      rfl
    · rw [State.hostRead, regAt_reserved (.inl ha)]; rfl
    · rw [State.hostRead, regAt_reserved (.inr ha)]; rfl
    · rw [State.hostRead, regAt_txBuf ⟨hlo, hhi⟩]
      exact if_neg (by omega)
    · rw [State.hostRead, regAt_rxBuf ⟨hlo, hhi⟩]
      exact if_neg (by omega)
  · exact ⟨six_bits_reserved _ _ _ _ _ _, hs.event1_ok, hs.irqEn1_ok, hs.config_ok,
      hs.cmdResult_ok, six_bits_reserved _ _ _ _ _ _⟩
  · exact (step_withInput (s := s) (x := { s.now with hWdata := d &&& mask }) rfl fun _ =>
      edge_of_masked_write hs hw (writableBits_regAt hmask)).symm
  · refine step_of_ignored_write hw ?_
    by_cases htx : 0x100 ≤ a.toNat ∧ a.toNat < 0x200
    · rw [regAt_txBuf htx, writeReg_txBuf_outside d (by omega)]
    · exact writeReg_readOnly s d (isReadOnly_regAt (by omega))

/-! ## The address map (R37, R38, R56) -/

/-- A flag with a single bit of EVENT0 or EVENT1 is that bit. -/
theorem and_bit_ne_zero (x : Byte) {n : Nat} (hn : n < 8) :
    (x &&& BitVec.twoPow 8 n != 0) = x.getLsbD n := by
  have hpow : ∀ n < 8, BitVec.twoPow 8 n ≠ 0#8 := by decide
  rw [BitVec.and_twoPow]
  cases x.getLsbD n
  · rfl
  · simp [hpow n hn]

/-- Settles O55: the single registers stand at their addresses by the map's equations, the buffers
at every index, and each flag is a bit of its register. -/
theorem registersStandAtTheirAddresses : Obligations.RegistersStandAtTheirAddresses := by
  intro s
  have flag0 (e : Event) {n : Nat} (hn : n < 8) (h0 : e.mask0 = BitVec.twoPow 8 n)
      (h1 : e.mask1 = 0) : s.flag e = s.event0.getLsbD n := by
    rw [State.flag, h0, h1, and_bit_ne_zero _ hn]
    simp
  have flag1 (e : Event) {n : Nat} (hn : n < 8) (h0 : e.mask0 = 0)
      (h1 : e.mask1 = BitVec.twoPow 8 n) : s.flag e = s.event1.getLsbD n := by
    rw [State.flag, h0, h1, and_bit_ne_zero _ hn]
    simp
  have buffers (k : Nat) (hk : k < 256) :
      s.hostRead (BitVec.ofNat 10 (0x100 + k)) = s.readTxBuf k ∧
        s.hostRead (BitVec.ofNat 10 (0x200 + k)) = s.readRxBuf k := by
    have htx : (BitVec.ofNat 10 (0x100 + k)).toNat = 0x100 + k := by
      rw [BitVec.toNat_ofNat]; omega
    have hrx : (BitVec.ofNat 10 (0x200 + k)).toNat = 0x200 + k := by
      rw [BitVec.toNat_ofNat]; omega
    rw [State.hostRead, State.hostRead, regAt_txBuf (by omega), regAt_rxBuf (by omega), htx, hrx,
      Nat.add_sub_cancel_left, Nat.add_sub_cancel_left]
    exact ⟨rfl, rfl⟩
  refine ⟨rfl, rfl, rfl, rfl, rfl, rfl, rfl, rfl, rfl, rfl, rfl, rfl, rfl, rfl, rfl, rfl, rfl, rfl,
    rfl, rfl, rfl, buffers, ⟨?_, ?_, ?_, ?_, ?_, ?_, ?_, ?_⟩, ?_, ?_, ?_, ?_, ?_, ?_, ?_⟩
  iterate 8 exact flag0 _ (by decide) (by decide) rfl
  all_goals exact flag1 _ (by decide) rfl (by decide)

end Sys2Proof.Proofs

/-! ## The bytes of a SEND_MSG (R60, R123)

While the block is BUSY no host write reaches the sources of a frame (`sameSources_edge`), and a
`MsgSend` begins each byte with what its source holds at that frame position. -/

namespace Sys2Proof.Proofs
open Sys2Proof.Machine Sys2Proof.Laws

/-- An operation that starts runs its first segment in the step (R89). -/
theorem step_of_starts {s : State} {i : Instr} (h : s.starts i) :
    step s = .next (startOf i s s.edge) :=
  (step_of_fetch h.1 ((fetch_of_idle h.2.1).trans h.2.2)).trans (exec_of_starts h)

/-- The first cycle of a run, and the rest. -/
theorem step_of_run_succ {n : Nat} {s u : State} (h : run (n + 1) s = .next u) :
    ∃ v, step s = .next v ∧ run n v = .next u := by
  cases hstep : step s with
  | next v => exact ⟨v, rfl, by rwa [run_succ_of_step hstep] at h⟩
  | fault f => simp [run, hstep] at h
  | refused r => simp [run, hstep] at h

/-- The byte that a `MsgSend` is sending, if it is, is its source's at the frame position (R123). -/
def sendsItsByte (s : State) (m : MsgSendAct) : Prop :=
  ∀ a, m.pt = .byte a → a.v = s.frameByte m.src m.p

theorem SameSources.trans {s t u : State} (h : SameSources s t) (h' : SameSources t u) :
    SameSources s u :=
  ⟨h'.build.trans h.build, h'.txLen.trans h.txLen, h'.txDest.trans h.txDest,
    h'.txByte.trans h.txByte, h'.txBuf.trans h.txBuf, h'.frameLen.trans h.frameLen,
    h'.frameDest.trans h.frameDest, h'.frameSrc.trans h.frameSrc, h'.framePay.trans h.framePay⟩

theorem SameSources.sendsItsByte {s u : State} (h : SameSources s u) (m : MsgSendAct) :
    sendsItsByte u m ↔ sendsItsByte s m := by
  simp only [Proofs.sendsItsByte, h.frameByte]

/-- Recording a failure leaves the sources of a frame alone. -/
theorem sameSources_recordFailure (w : State) (f : Option (Byte × Byte)) :
    SameSources w (recordFailure w f) := by
  obtain ⟨e0, e1, code, pos, count, hframe⟩ := recordFailure_frame w f
  rw [hframe]
  exact ⟨rfl, rfl, rfl, rfl, rfl, rfl, rfl, rfl, rfl⟩

/-- A cycle of a SEND_MSG leaves the sources of its frame alone. -/
theorem Cycle.sendMsg_sources {t w u : State} {m : MsgSendAct} (h : Cycle t w (.sendMsg m) u) :
    SameSources w u := by
  cases h <;> constructor <;> simp

/-- How a cycle of a `MsgSend` goes on, as far as its bytes are concerned: `t` is the state of the
cycle, `w` the state after the clock edge, and the last argument the next state. -/
inductive SendCycle (t w : State) (m : MsgSendAct) (wrap : MsgSendAct → Point)
    (ret : Bool → State → State) : State → Prop
  /-- The timed statement goes on. -/
  | counts : SendCycle t w m wrap ret (t.tick w)
  /-- The next timed statement begins, of the same frame; a byte of it is the source's. -/
  | enters (v m') (hsrc : m'.src = m.src) (hbyte : sendsItsByte t m → sendsItsByte t m') :
    SendCycle t w m wrap ret (State.enter v (wrap m'))
  /-- The `MsgSend` ends. -/
  | returns (ok v) : SendCycle t w m wrap ret (ret ok v)

theorem SendCycle.of_eq {t w u v : State} {m : MsgSendAct} {wrap : MsgSendAct → Point}
    {ret : Bool → State → State} (e : v = u) (h : SendCycle t w m wrap ret u) :
    SendCycle t w m wrap ret v := e ▸ h

section SendCycles
variable (t w : State) (m : MsgSendAct) (wrap : MsgSendAct → Point) (ret : Bool → State → State)

/-- A start or a stop condition sends no byte. -/
theorem SendCycle.enters_quiet (v : State) (m' : MsgSendAct) (hsrc : m'.src = m.src)
    (hquiet : ∀ a, m'.pt ≠ .byte a) : SendCycle t w m wrap ret (State.enter v (wrap m')) :=
  .enters v m' hsrc fun _ a ha => absurd ha (hquiet a)

/-- The byte that begins at a frame position is the source's there (R123). -/
theorem beginFrameByte_sendCycle (v : State) (fail : Bool) (p : Nat) :
    SendCycle t w m wrap ret (t.beginFrameByte v m fail p wrap) := by
  refine .enters _ ⟨m.src, m.attempt, fail, p, .byte ⟨t.frameByte m.src p, .clockLow 0⟩⟩ rfl ?_
  rintro - a ⟨⟩
  rfl

theorem afterByte_sendCycle (v : State) (ok : Bool) :
    SendCycle t w m wrap ret (t.afterByte v m ok wrap) := by
  unfold State.afterByte
  split_ifs
  · exact beginFrameByte_sendCycle t w m wrap ret v _ _
  · exact .enters_quiet t w m wrap ret _
      ⟨m.src, m.attempt, m.fail || !ok, m.p, .stop .clock⟩ rfl (fun _ => nofun)

theorem afterStop_sendCycle (v : State) :
    SendCycle t w m wrap ret (t.afterStop v m wrap ret) := by
  unfold State.afterStop
  split_ifs
  · exact .returns true _
  · exact .returns false _
  · exact .enters_quiet t w m wrap ret _
      ⟨m.src, m.attempt + 1, false, 0, .start .high⟩ rfl (fun _ => nofun)

/-- Every cycle of a `MsgSend`, in this attempt and on to the next (R124, R125). -/
theorem goMsgSend_sendCycle : SendCycle t w m wrap ret (t.goMsgSend w m wrap ret) := by
  obtain ⟨src, attempt, fail, p, pt⟩ := m
  cases pt with
  | start q =>
    rcases goPhyStart_cases t w q (fun q => wrap ⟨src, attempt, fail, p, .start q⟩) (fun w =>
        t.beginFrameByte w ⟨src, attempt, fail, p, .start q⟩ false 0 wrap)
      with ⟨-, e⟩ | ⟨-, e⟩ | ⟨-, e⟩
    · exact .of_eq e .counts
    · exact .of_eq e (.enters_quiet t w _ wrap ret _
        ⟨src, attempt, fail, p, .start .low⟩ rfl (fun _ => nofun))
    · exact .of_eq e (beginFrameByte_sendCycle t w _ wrap ret w false 0)
  | byte a =>
    rcases goSendByte_cases t w a (.frame p) (fun a => wrap ⟨src, attempt, fail, p, .byte a⟩)
        (fun ok w => t.afterByte w ⟨src, attempt, fail, p, .byte a⟩ ok wrap)
      with ⟨-, -, e⟩ | ⟨clk, dat, pt, -, e⟩ | e
    · exact .of_eq e .counts
    · refine .of_eq e (.enters _ ⟨src, attempt, fail, p, .byte ⟨a.v, pt⟩⟩ rfl fun h => ?_)
      rintro a' ⟨⟩
      exact h a rfl
    · exact .of_eq e (afterByte_sendCycle t w _ wrap ret _ _)
  | stop q =>
    rcases goPhyStop_cases t w q (fun q => wrap ⟨src, attempt, fail, p, .stop q⟩) (fun w =>
        t.afterStop w ⟨src, attempt, fail, p, .stop q⟩ wrap ret)
      with ⟨-, e⟩ | ⟨-, e⟩ | ⟨-, e⟩
    · exact .of_eq e .counts
    · exact .of_eq e (.enters_quiet t w _ wrap ret _
        ⟨src, attempt, fail, p, .stop .data⟩ rfl (fun _ => nofun))
    · exact .of_eq e (afterStop_sendCycle t w _ wrap ret w)

end SendCycles

/-- In the state `u` a SEND_MSG runs that was dispatched in `s`: the sources of its frame stand as
they stood there, and it sends them. -/
def SendsFrom (s u : State) : Prop :=
  SameSources s u ∧ ∃ m, u.point = .sendMsg m ∧ m.src = .tx ∧ sendsItsByte u m

/-- The dispatch of a SEND_MSG; its cycle is BUSY, the command being pending (R32, R60). -/
theorem sendsFrom_of_starts {s t : State} (hs : s.starts .sendMsg) (h : exec .sendMsg s = .next t) :
    SendsFrom s t := by
  rw [exec_of_starts hs] at h
  cases h
  have hbusy : s.busy = true := by
    simp [State.busy, (poll_command hs.2.2 nofun).1]
  obtain ⟨hb, hl, hd, hy, hbuf, fl, fd, fs, fp⟩ := sameSources_edge hbusy
  exact ⟨⟨hb, hl, hd, hy, hbuf, fl, fd, fs, fp⟩, _, rfl, rfl, nofun⟩

/-- A cycle in which the SEND_MSG goes on. -/
theorem SendsFrom.step {s u v : State} (h : SendsFrom s u) (hr : u.now.rst = false)
    (hstep : step u = .next v) (hv : v.point.instr = some .sendMsg) : SendsFrom s v := by
  obtain ⟨hsame, m, hp, hsrc, hbyte⟩ := h
  have hne : u.point ≠ .idle := by rw [hp]; nofun
  rw [step_of_running hr hne] at hstep
  cases hstep
  have hcycle := resume_cycle u u.edge hne
  rw [hp] at hcycle
  have hsame' : SameSources u (u.resume u.edge) :=
    (sameSources_edge (busy_of_point hne)).trans
      ((sameSources_recordFailure u.edge _).trans hcycle.sendMsg_sources)
  have hresume : u.resume u.edge = u.goMsgSend u.edge m .sendMsg State.endSendMsg := by
    simp only [State.resume, hp]
  have hsend := goMsgSend_sendCycle u u.edge m .sendMsg State.endSendMsg
  rw [hresume] at hsame' hv ⊢
  refine ⟨hsame.trans hsame', ?_⟩
  generalize u.goMsgSend u.edge m .sendMsg State.endSendMsg = v at hsend hsame' hv ⊢
  cases hsend with
  | counts => exact ⟨m, (edge_point u).trans hp, hsrc, (hsame'.sendsItsByte m).mpr hbyte⟩
  | enters w m' hsrc' hgo =>
    exact ⟨m', rfl, hsrc'.trans hsrc, (hsame'.sendsItsByte m').mpr (hgo hbyte)⟩
  | returns ok w => cases hv

/-- As long as the SEND_MSG runs. -/
theorem SendsFrom.run {s u : State} {n : Nat} {t : State} (h : SendsFrom s t) (hn : t.noReset n)
    (hrun : ∀ i, i ≤ n → ∃ w, Machine.run i t = .next w ∧ w.point.instr = some .sendMsg)
    (hu : Machine.run n t = .next u) : SendsFrom s u := by
  induction n generalizing t with
  | zero => cases hu; exact h
  | succ n ih =>
    obtain ⟨hr, hrest⟩ := noReset_succ hn
    obtain ⟨v, hstep, hu⟩ := step_of_run_succ hu
    have hrun' (i : Nat) (hi : i ≤ n) :
        ∃ w, Machine.run i v = .next w ∧ w.point.instr = some .sendMsg := by
      rw [← run_succ_of_step hstep]
      exact hrun (i + 1) (by omega)
    obtain ⟨v', hv', hpoint⟩ := hrun' 0 (Nat.zero_le n)
    cases hv'
    obtain ⟨-, -, -, -, -, hin⟩ := step_environment hr hstep
    exact ih (h.step hr hstep hpoint) (by rw [State.noReset, hin]; exact hrest) hrun' hu

/-- The frame of the TX message, as the host reads its registers (R123). -/
theorem frameByte_tx (s : State) (p : Nat) : s.frameByte .tx p =
    wireByte s.txLen s.txDest s.build.nodeId (fun k => s.readReg (.txBuf k)) p := by
  rcases p with _ | _ | _ | k <;> rfl

/-- Settles O56: from the dispatch on, every cycle keeps the sources of the frame and begins only
bytes of theirs. -/
theorem sendMsgSendsTheTxRegisters : Obligations.SendMsgSendsTheTxRegisters := by
  intro s t u n m a hs hn h hrun hu hp hm
  have hstep : step s = .next t := (step_of_starts hs).trans ((exec_of_starts hs).symm.trans h)
  obtain ⟨-, -, -, -, -, hin⟩ := step_environment hs.1 hstep
  have hrest : t.noReset n := by
    rw [State.noReset, hin]
    exact (noReset_succ (by rwa [Nat.add_comm] at hn)).2
  obtain ⟨hsame, m', hp', hsrc, hbyte⟩ := (sendsFrom_of_starts hs h).run hrest hrun hu
  obtain rfl : m' = m := Point.sendMsg.inj (hp'.symm.trans hp)
  rw [hbyte a hm, hsrc, hsame.frameByte, frameByte_tx]

end Sys2Proof.Proofs

/-! ## RECV_BYTE on the level histories (R62, R114, R115)

`recvByteFrom` reads the pseudocode of `RecvByte` off the levels that the synchronisers will show. A
RECV_BYTE runs through it wait by wait, and a byte that gets past its eighth bit is one sample for
each of eight clock pulses. -/

namespace Sys2Proof.Proofs
open Sys2Proof.Machine Sys2Proof.Laws

/-! ### Runs without reset -/

theorem noReset_mono {s : State} {m n : Nat} (h : s.noReset n) (hmn : m ≤ n) : s.noReset m :=
  fun x hx => h x (List.take_subset_take_left _ hmn hx)

/-- A run without reset keeps the build and drops the inputs of its cycles. -/
theorem run_environment {n : Nat} {s u : State} (hn : s.noReset n) (h : run n s = .next u) :
    u.build = s.build ∧ u.inputs = s.inputs.drop n := by
  induction n generalizing s with
  | zero => cases h; exact ⟨rfl, rfl⟩
  | succ n ih =>
    obtain ⟨hr, hrest⟩ := noReset_succ hn
    obtain ⟨v, hstep, h⟩ := step_of_run_succ h
    obtain ⟨hbuild, -, -, -, -, hin⟩ := step_environment hr hstep
    obtain ⟨hbuild', hin'⟩ := ih (by rw [State.noReset, hin]; exact hrest) h
    exact ⟨hbuild'.trans hbuild, by rw [hin', hin, List.drop_tail]⟩

/-- No reset in the cycle that a run has come to. -/
theorem now_rst_of_run {n : Nat} {s u : State} (hn : s.noReset (n + 1))
    (h : run n s = .next u) : u.now.rst = false := by
  obtain ⟨-, hin⟩ := run_environment (noReset_mono hn (Nat.le_succ n)) h
  rw [State.now, hin, List.headD_eq_head?_getD, List.head?_drop]
  cases hx : s.inputs[n]? with
  | none => rfl
  | some x =>
    refine hn x (List.mem_of_getElem? (i := n) ?_)
    rw [List.getElem?_take_of_lt (Nat.lt_succ_self n), hx]

/-- One more cycle at the end of a run. -/
theorem run_succ_of_run {n : Nat} {s u : State} (h : run n s = .next u) :
    run (n + 1) s = step u := by
  rw [run_add h]
  cases hstep : step u <;> simp [run, hstep]

/-! ### The waits of a RECV_BYTE -/

/-- A wait that is satisfied: in a cycle from its first one on, in which its condition holds. -/
theorem waitFrom_some {cond : Nat → Bool} {c n c' : Nat} (h : waitFrom cond c n = some c') :
    c ≤ c' ∧ cond c' = true := by
  induction n generalizing c with
  | zero => cases h
  | succ n ih =>
    rw [waitFrom] at h
    split at h
    · rename_i hc; cases h; exact ⟨le_rfl, hc⟩
    · obtain ⟨hle, hc⟩ := ih h
      exact ⟨by omega, hc⟩

/-- In its cycle `c` the run from `s` is in `u`, at the wait `a` of a RECV_BYTE, with `n` cycles of
it to go. -/
structure Waiting (s : State) (a : RecvByteAct) (c n : Nat) (u : State) : Prop where
  run_eq : run c s = .next u
  point_eq : u.point = .recvByte a
  togo : u.cnt + n = s.build.edgeTimeout

section Waits
variable {s u : State} {a : RecvByteAct} {c n : Nat}

/-- A cycle of the wait, on the levels that the synchronisers show in it. -/
theorem Waiting.step_eq (h : Waiting s a c n u) (hs : s.syncsOk) (hn : s.noReset (c + 1)) :
    run (c + 1) s = .next (u.goRecvByte u.edge a .alone .recvByte State.endRecvByte) ∧
      u.ci = s.ciAt c ∧ u.di = s.diAt c ∧ u.build = s.build := by
  have hc : s.noReset c := noReset_mono hn (Nat.le_succ c)
  obtain ⟨hci, hdi, -⟩ := synchroniserDelay c s u hs hc h.run_eq
  refine ⟨?_, hci, hdi, (run_environment hc h.run_eq).1⟩
  rw [run_succ_of_run h.run_eq, step_of_running (now_rst_of_run hn h.run_eq)
    (by rw [h.point_eq]; nofun)]
  simp only [State.resume, h.point_eq]

/-- The cycle in which the wait is satisfied. -/
theorem Waiting.met (h : Waiting s a c n u) (hs : s.syncsOk) (hn : s.noReset (c + 1))
    (hmet : a.pt.met (s.ciAt c) = true) :
    run (c + 1) s = .next (u.afterEdge u.edge a .recvByte State.endRecvByte) ∧
      u.di = s.diAt c := by
  obtain ⟨hrun, hci, hdi, -⟩ := h.step_eq hs hn
  refine ⟨hrun.trans ?_, hdi⟩
  rw [State.goRecvByte, wait_of_met _ _ _ _ (hci ▸ hmet)]
  rfl

/-- A cycle in which the wait is not satisfied, but the last. -/
theorem Waiting.unmet (h : Waiting s a c (n + 2) u) (hs : s.syncsOk) (hn : s.noReset (c + 1))
    (hmet : a.pt.met (s.ciAt c) = false) : ∃ v, Waiting s a (c + 1) (n + 1) v := by
  obtain ⟨hrun, hci, -, hbuild⟩ := h.step_eq hs hn
  have htogo := h.togo
  refine ⟨u.tick u.edge, hrun.trans ?_, (edge_point u).trans h.point_eq, by simp; omega⟩
  rw [State.goRecvByte, State.wait, hci, hmet, hbuild, if_neg (by simp), if_pos (by omega)]

/-- The last cycle of a wait that is never satisfied: RECV_BYTE returns what it has (R116). -/
theorem Waiting.timeout (h : Waiting s a c 1 u) (hs : s.syncsOk) (hn : s.noReset (c + 1))
    (hmet : a.pt.met (s.ciAt c) = false) :
    ∃ v, run (c + 1) s = .next v ∧ v.point = .idle ∧ v.rxByte = a.acc := by
  obtain ⟨hrun, hci, -, hbuild⟩ := h.step_eq hs hn
  have htogo := h.togo
  rw [State.goRecvByte, State.wait, hci, hmet, hbuild, if_neg (by simp), if_neg (by omega)] at hrun
  exact ⟨_, hrun, rfl, rfl⟩

/-- A wait that is satisfied, from any of its cycles on. -/
theorem Waiting.satisfied {c' : Nat} (h : Waiting s a c n u) (hs : s.syncsOk)
    (hc' : waitFrom (fun t => a.pt.met (s.ciAt t)) c n = some c') (hn : s.noReset (c' + 1)) :
    ∃ v : State, run (c' + 1) s = .next (v.afterEdge v.edge a .recvByte State.endRecvByte) ∧
      v.di = s.diAt c' := by
  induction n generalizing c u with
  | zero => cases hc'
  | succ n ih =>
    have hle := (waitFrom_some hc').1
    rw [waitFrom] at hc'
    split at hc'
    · rename_i hmet
      cases hc'
      obtain ⟨hrun, hdi⟩ := h.met hs hn hmet
      exact ⟨u, hrun, hdi⟩
    · rename_i hmet
      cases n with
      | zero => cases hc'
      | succ n =>
        obtain ⟨v, hv⟩ := h.unmet hs (noReset_mono hn (by omega)) (by simpa using hmet)
        exact ih hv hc'

/-- A wait that times out, from any of its cycles on. -/
theorem Waiting.timesOut (h : Waiting s a c n u) (hpos : 1 ≤ n) (hs : s.syncsOk)
    (hnone : waitFrom (fun t => a.pt.met (s.ciAt t)) c n = none) (hn : s.noReset (c + n)) :
    ∃ v, run (c + n) s = .next v ∧ v.point = .idle ∧ v.rxByte = a.acc := by
  obtain ⟨n, rfl⟩ := Nat.exists_eq_add_of_le' hpos
  induction n generalizing c u with
  | zero =>
    rw [waitFrom] at hnone
    split at hnone
    · cases hnone
    · rename_i hmet
      exact h.timeout hs hn (by simpa using hmet)
  | succ n ih =>
    rw [waitFrom] at hnone
    split at hnone
    · cases hnone
    · rename_i hmet
      obtain ⟨v, hv⟩ := h.unmet hs (noReset_mono hn (by omega)) (by simpa using hmet)
      have hcycles : c + (n + 1 + 1) = c + 1 + (n + 1) := by omega
      rw [hcycles] at hn ⊢
      exact ih hv (by omega) hnone hn

end Waits

/-! ### RECV_BYTE runs through its pseudocode -/

section Result
variable {limit : Nat} (hlimit : 1 ≤ limit) (ci di : Nat → Level)
include hlimit

theorem le_recvTail_last (acc : Byte) (c : Nat) : c ≤ (recvTail limit ci acc c).last := by
  unfold recvTail
  split
  · simp only; omega
  · rename_i c1 h1
    have hle1 := (waitFrom_some h1).1
    split
    · simp only; omega
    · rename_i c2 h2
      have hle2 := (waitFrom_some h2).1
      split
      · simp only; omega
      · rename_i c3 h3
        have hle3 := (waitFrom_some h3).1
        simp only; omega

theorem le_recvFrom_last (acc : Byte) (c m : Nat) : c ≤ (recvFrom limit ci di acc c m).last := by
  induction m generalizing acc c with
  | zero => exact le_recvTail_last hlimit ci acc c
  | succ m ih =>
    rw [recvFrom]
    split
    · simp only; omega
    · rename_i c1 h1
      have hle1 := (waitFrom_some h1).1
      split
      · simp only; omega
      · rename_i c2 h2
        have hle2 := (waitFrom_some h2).1
        exact le_trans (by omega) (ih _ (c2 + 1))

end Result

/-- The RECV_BYTE from `s` returns the byte of `r` in its last cycle. -/
def Returns (s : State) (r : RecvResult) : Prop :=
  ∃ v, run (r.last + 1) s = .next v ∧ v.point = .idle ∧ v.rxByte = r.acc

section Program
variable {s u : State} {acc : Byte} {c : Nat}

/-- A wait begins with the full limit to go. -/
theorem waiting_of_enter {w : State} {a : RecvByteAct}
    (h : run c s = .next (w.enter (.recvByte a))) :
    Waiting s a c s.build.edgeTimeout (w.enter (.recvByte a)) :=
  ⟨h, rfl, Nat.zero_add _⟩

/-- The handshake after the eighth bit. -/
theorem returns_recvTail (hs : s.syncsOk) (hlimit : 1 ≤ s.build.edgeTimeout)
    (h : Waiting s ⟨acc, .ackRequest⟩ c s.build.edgeTimeout u)
    (hn : s.noReset ((recvTail s.build.edgeTimeout s.ciAt acc c).last + 1)) :
    Returns s (recvTail s.build.edgeTimeout s.ciAt acc c) := by
  unfold recvTail at hn ⊢
  cases h1 : waitFrom (fun t => !s.ciAt t) c s.build.edgeTimeout with
  | none =>
    simp only [h1, Returns] at hn ⊢
    have hcycles : c + s.build.edgeTimeout - 1 + 1 = c + s.build.edgeTimeout := by omega
    rw [hcycles] at hn ⊢
    exact h.timesOut hlimit hs h1 hn
  | some c1 =>
    simp only [h1] at hn ⊢
    cases h2 : waitFrom s.ciAt (c1 + 1) s.build.edgeTimeout with
    | none =>
      simp only [h2, Returns] at hn ⊢
      obtain ⟨v, hv, -⟩ := h.satisfied hs h1 (noReset_mono hn (by omega))
      have hcycles : c1 + s.build.edgeTimeout + 1 = c1 + 1 + s.build.edgeTimeout := by omega
      rw [hcycles] at hn ⊢
      exact (waiting_of_enter hv).timesOut hlimit hs h2 hn
    | some c2 =>
      simp only [h2] at hn ⊢
      have hle2 := (waitFrom_some h2).1
      cases h3 : waitFrom (fun t => !s.ciAt t) (c2 + 1) s.build.edgeTimeout with
      | none =>
        simp only [h3, Returns] at hn ⊢
        obtain ⟨v, hv, -⟩ := h.satisfied hs h1 (noReset_mono hn (by omega))
        obtain ⟨v', hv', -⟩ := (waiting_of_enter hv).satisfied hs h2 (noReset_mono hn (by omega))
        have hcycles : c2 + s.build.edgeTimeout + 1 = c2 + 1 + s.build.edgeTimeout := by omega
        rw [hcycles] at hn ⊢
        exact (waiting_of_enter hv').timesOut hlimit hs h3 hn
      | some c3 =>
        simp only [h3, Returns] at hn ⊢
        have hle3 := (waitFrom_some h3).1
        obtain ⟨v, hv, -⟩ := h.satisfied hs h1 (noReset_mono hn (by omega))
        obtain ⟨v', hv', -⟩ := (waiting_of_enter hv).satisfied hs h2 (noReset_mono hn (by omega))
        obtain ⟨v'', hv'', -⟩ := (waiting_of_enter hv').satisfied hs h3 hn
        exact ⟨_, hv'', rfl, rfl⟩

/-- Where `RecvByte` waits with `m` of its bits to come. -/
def bitsToCome : Nat → RecvBytePt
  | 0 => .ackRequest
  | m + 1 => .fall (Fin.ofNat 8 (7 - m))

/-- After a bit one bit less is to come. -/
theorem bitsToCome_after {m : Nat} (hm : m < 8) :
    (if (Fin.ofNat 8 (7 - m)).val < 7 then RecvBytePt.fall (Fin.ofNat 8 (7 - m) + 1)
      else .ackRequest) = bitsToCome m := by
  revert m
  decide

theorem sampleBit_eq {m : Nat} (hm : m < 8) (acc : Byte) (d : Level) :
    sampleBit acc (Fin.ofNat 8 (7 - m)) d =
      if m = 0 then acc ||| zext8 d else (acc ||| zext8 d) <<< 1 := by
  have hj : (Fin.ofNat 8 (7 - m)).val = 7 - m := Nat.mod_eq_of_lt (by omega)
  rw [sampleBit, hj]
  by_cases h0 : m = 0
  · rw [if_neg (by omega), if_pos h0]
  · rw [if_pos (by omega), if_neg h0]

/-- A RECV_BYTE that waits with `m` bits to come returns what its pseudocode does (R114, R116). -/
theorem returns_recvFrom (hs : s.syncsOk) (hlimit : 1 ≤ s.build.edgeTimeout) {m : Nat} (hm : m ≤ 8)
    (h : Waiting s ⟨acc, bitsToCome m⟩ c s.build.edgeTimeout u)
    (hn : s.noReset ((recvFrom s.build.edgeTimeout s.ciAt s.diAt acc c m).last + 1)) :
    Returns s (recvFrom s.build.edgeTimeout s.ciAt s.diAt acc c m) := by
  induction m generalizing acc c u with
  | zero => exact returns_recvTail hs hlimit h hn
  | succ m ih =>
    rw [recvFrom] at hn ⊢
    cases h1 : waitFrom (fun t => !s.ciAt t) c s.build.edgeTimeout with
    | none =>
      simp only [h1, Returns] at hn ⊢
      have hcycles : c + s.build.edgeTimeout - 1 + 1 = c + s.build.edgeTimeout := by omega
      rw [hcycles] at hn ⊢
      exact h.timesOut hlimit hs h1 hn
    | some c1 =>
      simp only [h1] at hn ⊢
      cases h2 : waitFrom s.ciAt (c1 + 1) s.build.edgeTimeout with
      | none =>
        simp only [h2, Returns] at hn ⊢
        obtain ⟨v, hv, -⟩ := h.satisfied hs h1 (noReset_mono hn (by omega))
        have hcycles : c1 + s.build.edgeTimeout + 1 = c1 + 1 + s.build.edgeTimeout := by omega
        rw [hcycles] at hn ⊢
        exact (waiting_of_enter hv).timesOut hlimit hs h2 hn
      | some c2 =>
        simp only [h2] at hn ⊢
        have hle2 := (waitFrom_some h2).1
        have hlast := le_recvFrom_last hlimit s.ciAt s.diAt
          (if m = 0 then acc ||| zext8 (s.diAt c2) else (acc ||| zext8 (s.diAt c2)) <<< 1)
          (c2 + 1) m
        obtain ⟨v, hv, -⟩ := h.satisfied hs h1 (noReset_mono hn (by omega))
        obtain ⟨v', hv', hdi⟩ :=
          (waiting_of_enter hv).satisfied hs h2 (noReset_mono hn (by omega))
        simp only [State.afterEdge, hdi, sampleBit_eq hm, bitsToCome_after hm] at hv'
        exact ih (by omega) (waiting_of_enter hv') hn

end Program

/-! ### The bits of the byte -/

/-- A sequence with `x` put before it. -/
def before (x : Nat) (f : Nat → Nat) : Nat → Nat
  | 0 => x
  | j + 1 => f j

/-- `m` clock pulses one after the other, from cycle `c` on and done by cycle `last`: pulse `j` is
low in cycle `low j` and high in the later cycle `high j`. -/
structure Pulses (ci : Nat → Level) (c last m : Nat) (low high : Nat → Nat) : Prop where
  pulse : ∀ j, j < m → low j < high j ∧ ci (low j) = false ∧ ci (high j) = true
  next : ∀ j, j + 1 < m → high j < low (j + 1)
  first : 0 < m → c ≤ low 0
  final : ∀ j, j < m → high j ≤ last

/-- A pulse before others. -/
theorem Pulses.before {ci : Nat → Level} {c c1 c2 last m : Nat} {low high : Nat → Nat}
    (h : Pulses ci (c2 + 1) last m low high) (hc : c ≤ c1) (hlt : c1 < c2) (hlow : ci c1 = false)
    (hhigh : ci c2 = true) (hlast : c2 ≤ last) :
    Pulses ci c last (m + 1) (before c1 low) (before c2 high) where
  pulse
    | 0, _ => ⟨hlt, hlow, hhigh⟩
    | j + 1, hj => h.pulse j (by omega)
  next
    | 0, hj => h.first (by omega)
    | j + 1, hj => h.next j (by omega)
  first _ := hc
  final
    | 0, _ => hlast
    | j + 1, hj => h.final j (by omega)

theorem getLsbD_zext8 (d : Level) (i : Nat) : (zext8 d).getLsbD i = (d && decide (i = 0)) := by
  cases d <;> cases i <;> simp [zext8, bitAt]

/-- The accumulator after a bit with `m` bits to come (R114). -/
def nextAcc (m : Nat) (acc : Byte) (d : Level) : Byte :=
  if m = 0 then acc ||| zext8 d else (acc ||| zext8 d) <<< 1

/-- The sampled bit stands beside the accumulator's bits, and all move up but after the last one. -/
theorem getLsbD_nextAcc {m i : Nat} (acc : Byte) (d : Level) (hi : i + (m - (m - 1)) < 8) :
    (nextAcc m acc d).getLsbD (i + (m - (m - 1))) = (acc.getLsbD i || (d && decide (i = 0))) := by
  cases m with
  | zero => simp [nextAcc, getLsbD_zext8]
  | succ m =>
    have hone : m + 1 - (m + 1 - 1) = 1 := by omega
    rw [hone] at hi ⊢
    rw [nextAcc, if_neg (Nat.succ_ne_zero m), BitVec.getLsbD_shiftLeft, Nat.add_sub_cancel,
      BitVec.getLsbD_or, getLsbD_zext8]
    simp [hi]

/-- Before a bit, bit 0 of the accumulator is free (R116). -/
theorem getLsbD_nextAcc_zero {m : Nat} (hm : 0 < m) (acc : Byte) (d : Level) :
    (nextAcc m acc d).getLsbD 0 = false := by
  simp [nextAcc, Nat.pos_iff_ne_zero.mp hm]

/-- A byte that is past its eighth bit is returned as it stands (R114, R116). -/
theorem recvTail_acc (limit : Nat) (ci : Nat → Level) (acc : Byte) (c : Nat) :
    (recvTail limit ci acc c).acc = acc := by
  unfold recvTail
  split
  · rfl
  · split
    · rfl
    · split <;> rfl

/-- A `RecvByte` got past its eighth bit: it succeeded, or timed out in the handshake (R86). -/
abbrev pastBits (r : RecvResult) : Prop := r.code = 0x00 ∨ 0x20 ≤ r.code.toNat

theorem not_pastBits {acc : Byte} {k last : Nat} (hlo : 0x10 ≤ k) (hhi : k < 0x20) :
    ¬pastBits ⟨acc, BitVec.ofNat 8 k, last⟩ := by
  have hk : (BitVec.ofNat 8 k).toNat = k := by rw [BitVec.toNat_ofNat]; omega
  rintro (h | h)
  · have hzero : (BitVec.ofNat 8 k).toNat = 0 := congrArg BitVec.toNat h
    omega
  · exact absurd (hk ▸ h) (by omega)

/-- A byte that gets past its last `m` bits holds in them, most significant bit first, the data
levels of one clock pulse each (R62, R115); above them it holds what the accumulator held. -/
theorem recvFrom_reads {limit : Nat} (hlimit : 1 ≤ limit) (ci di : Nat → Level) {m : Nat}
    (hm : m ≤ 8) {acc : Byte} {c : Nat} (hacc : 0 < m → acc.getLsbD 0 = false)
    (hpast : pastBits (recvFrom limit ci di acc c m)) :
    ∃ low high, Pulses ci c (recvFrom limit ci di acc c m).last m low high ∧
      (∀ j, j < m → (recvFrom limit ci di acc c m).acc.getLsbD (m - 1 - j) = di (high j)) ∧
      ∀ i, (0 < m → 1 ≤ i) → i + (m - 1) < 8 →
        (recvFrom limit ci di acc c m).acc.getLsbD (i + (m - 1)) = acc.getLsbD i := by
  induction m generalizing acc c with
  | zero =>
    refine ⟨id, id, ⟨nofun, nofun, nofun, nofun⟩, nofun, fun i _ _ => ?_⟩
    rw [recvFrom, recvTail_acc]
    rfl
  | succ m ih =>
    rw [recvFrom] at hpast ⊢
    cases h1 : waitFrom (fun t => !ci t) c limit with
    | none =>
      simp only [h1] at hpast
      exact absurd hpast (not_pastBits (by omega) (by omega))
    | some c1 =>
      simp only [h1] at hpast ⊢
      obtain ⟨hle1, hlow⟩ := waitFrom_some h1
      cases h2 : waitFrom ci (c1 + 1) limit with
      | none =>
        simp only [h2] at hpast
        exact absurd hpast (not_pastBits (by omega) (by omega))
      | some c2 =>
        simp only [h2] at hpast ⊢
        obtain ⟨hle2, hhigh⟩ := waitFrom_some h2
        rw [← nextAcc] at hpast ⊢
        have hlast := le_recvFrom_last hlimit ci di (nextAcc m acc (di c2)) (c2 + 1) m
        obtain ⟨low, high, hpulses, hbits, habove⟩ :=
          ih (by omega) (fun h0 => getLsbD_nextAcc_zero h0 acc _) hpast
        -- the bits at and above the first one sampled here
        have hheld (i : Nat) (hi : i + m < 8) :
            (recvFrom limit ci di (nextAcc m acc (di c2)) (c2 + 1) m).acc.getLsbD (i + m) =
              (acc.getLsbD i || (di c2 && decide (i = 0))) := by
          have hindex : i + m = i + (m - (m - 1)) + (m - 1) := by omega
          rw [hindex, habove _ (by omega) (by omega), getLsbD_nextAcc _ _ (by omega)]
        refine ⟨before c1 low, before c2 high,
          hpulses.before hle1 hle2 (by simpa using hlow) hhigh (by omega), fun j hj => ?_,
          fun i hi hlt => ?_⟩
        · cases j with
          | zero =>
            have hfirst := hheld 0 (by omega)
            rw [hacc (Nat.succ_pos m)] at hfirst
            simpa [before] using hfirst
          | succ j =>
            have hindex : m + 1 - 1 - (j + 1) = m - 1 - j := by omega
            rw [hindex, hbits j (by omega)]
            rfl
        · have hpos : i ≠ 0 := Nat.pos_iff_ne_zero.mp (hi (Nat.succ_pos m))
          simpa [hpos] using hheld i hlt

/-- Settles O30: the RECV_BYTE returns the byte of its pseudocode, which samples one bit in each of
eight clock pulses. -/
theorem recvByteReadsMsbFirst : Obligations.RecvByteReadsMsbFirst := by
  intro s hstarts hs hlimit r hn hpast
  have hstep := step_of_starts hstarts
  have hrun : run 1 s = .next (startOf .recvByte s s.edge) := run_succ_of_step hstep
  rw [Nat.add_comm] at hn
  obtain ⟨u, hu, hidle, hbyte⟩ :=
    returns_recvFrom hs hlimit le_rfl (acc := 0) (waiting_of_enter hrun) hn
  rw [run_succ_of_step hstep] at hu
  obtain ⟨low, high, hpulses, hbits, -⟩ :=
    recvFrom_reads hlimit s.ciAt s.diAt le_rfl (fun _ => rfl) hpast
  refine ⟨_, u, exec_of_starts hstarts, hu, hidle, low, high, fun j hj => ?_,
    fun j hj => hpulses.next j (by omega), hpulses.first (by omega), hpulses.final 7 (by omega)⟩
  obtain ⟨hlt, hlow, hhigh⟩ := hpulses.pulse j hj
  exact ⟨hlt, hlow, hhigh, by rw [hbyte]; exact hbits j hj⟩

end Sys2Proof.Proofs

/-! ## Encodings (R72 to R77)

The decoder reads OP by the opcode map, the encoder writes it by `opOf`: the two are one relation
between opcodes and commands, and the rest is the two fields of a command word. -/

namespace Sys2Proof.Proofs
open Sys2Proof.Machine

/-- Every opcode above the map's last is rejected (R73, R74). -/
theorem decodeOp_of_ge {op : BitVec 4} (h : 7 ≤ op.toNat) :
    decodeOp op = .rejected .reservedOpcode := by
  unfold decodeOp
  split
  case h_8 => rfl
  all_goals omega

/-- The opcode map read backwards: the encoder's opcode of a command is the one that decodes to it
(R73). -/
theorem decodeOp_eq_instr_iff {op : BitVec 4} {i : Instr} :
    decodeOp op = .instr i ↔ opOf i = some op := by
  constructor
  · intro h
    unfold decodeOp at h
    split at h <;> cases h <;>
      exact congrArg some (BitVec.eq_of_toNat_eq (Eq.symm (by assumption)))
  · intro h
    cases i <;> cases h <;> rfl

/-- Exactly the seven opcodes of the map decode (R73). -/
theorem decodeOp_decodes_iff (op : BitVec 4) : (∃ i, decodeOp op = .instr i) ↔ op.toNat ≤ 6 := by
  constructor
  · rintro ⟨i, hi⟩
    exact (decodeOp_legal hi).1
  · intro h
    interval_cases hop : op.toNat <;> simp [decodeOp, hop]

/-- A word decodes to an operation if its RSV is 0000 and its OP decodes to it (R72, R74). -/
theorem decodeCmd_eq_instr_iff {w : BitVec 8} {i : Instr} :
    decodeCmd w = .instr i ↔ cmdRsv w = 0#4 ∧ decodeOp (cmdOp w) = .instr i := by
  unfold decodeCmd
  split_ifs with hrsv <;> simp [hrsv]

/-- A command word is its RSV above its OP (R72). -/
theorem cmdRsv_append_cmdOp (w : BitVec 8) : cmdRsv w ++ cmdOp w = w :=
  (BitVec.extractLsb'_append_extractLsb'_eq_extractLsb' rfl).trans BitVec.extractLsb'_eq_self

theorem decodeLine_eq_instr_iff {w : BitVec 3} {i : Instr} :
    decodeLine w = .instr i ↔ w = 0b110#3 ∧ i = .msgReceive := by
  unfold decodeLine
  split_ifs with hw <;> simp [hw, eq_comm]

/-- Settles O1: the seven words one by one, and the opcodes above them. -/
theorem opcodeMap : Obligations.OpcodeMap := by
  refine ⟨rfl, rfl, rfl, rfl, rfl, rfl, rfl, fun w hw => ?_⟩
  unfold decodeCmd
  split
  · exact ⟨_, decodeOp_of_ge hw⟩
  · exact ⟨_, rfl⟩

/-- An encoding that decodes is the encoding of what it decodes to (R72 to R77). -/
theorem encode_of_decode {e : Encoding} {i : Instr} (h : decode e = .instr i) : encode i = e := by
  cases e with
  | cmd8 w =>
    obtain ⟨hrsv, hop⟩ := decodeCmd_eq_instr_iff.mp h
    rw [encode, decodeOp_eq_instr_iff.mp hop, ← hrsv]
    exact congrArg Encoding.cmd8 (cmdRsv_append_cmdOp w)
  | line3 w =>
    obtain ⟨rfl, rfl⟩ := decodeLine_eq_instr_iff.mp h
    rfl

/-- Exactly the well-formed encodings decode (R72 to R74, R77). -/
theorem decodes_iff_wf (e : Encoding) : (∃ i, decode e = .instr i) ↔ e.wf = true := by
  cases e with
  | cmd8 w =>
    simp only [decode, decodeCmd_eq_instr_iff, exists_and_left, decodeOp_decodes_iff, Encoding.wf,
      Bool.and_eq_true, beq_iff_eq, decide_eq_true_eq]
    rfl
  | line3 w => simp [decode, decodeLine_eq_instr_iff, Encoding.wf]

/-- Settles O2: the round trip of each operation, and the two facts about the encodings. -/
theorem decodeAndEncodeAgree : Obligations.DecodeAndEncodeAgree := by
  refine ⟨fun i _ => ?_, fun _ _ => encode_of_decode, decodes_iff_wf⟩
  cases i <;> exact ⟨rfl, rfl⟩

end Sys2Proof.Proofs

/-! ## The levels of the waveforms (R79 to R82)

A micro-program leaves the lines as its waveform shows them at the control point it goes to, and it
hands them to its caller so. -/

namespace Sys2Proof.Proofs
open Sys2Proof.Machine Sys2Proof.Laws

/-- The waveforms show a state's control point and its three outputs only. -/
theorem linesOk_eq (s t : State) :
    State.linesOk { t with
      point := s.point, clkOut := s.clkOut, datOut := s.datOut, ackOut := s.ackOut } = s.linesOk :=
  rfl

/-- The clock edge leaves the outputs and the control point alone. -/
theorem linesOk_edge {s : State} (h : s.linesOk) : s.edge.linesOk := by
  rw [← linesOk_eq s s.edge] at h
  simpa only [← edge_point s, ← edge_clkOut s, ← edge_datOut s, ← edge_ackOut s] using h

section Levels
variable {s : State}

/-- A `PhyStart` keeps its waveform if `wrap` places it in a caller that shows it (`hwrap`) and the
caller goes on from every state as its own waveform shows (`hret`). -/
theorem goPhyStart_linesOk {q : PhyStartPt} {wrap : PhyStartPt → Point} {ret : State → State}
    (h : q.linesOk s) (hstay : s.edge.linesOk)
    (hwrap : ∀ w q, q.linesOk w → (State.enter w (wrap q)).linesOk)
    (hret : ∀ w, (ret w).linesOk) : (s.goPhyStart s.edge q wrap ret).linesOk := by
  rcases goPhyStart_cases s s.edge q wrap ret with ⟨-, e⟩ | ⟨rfl, e⟩ | ⟨rfl, e⟩ <;> rw [e]
  · exact hstay
  · exact hwrap _ _ ⟨(edge_clkOut s).trans h.1, rfl⟩
  · exact hret _

/-- A `PhyStop` hands the clock and the data line high to its caller (R80). -/
theorem goPhyStop_linesOk {q : PhyStopPt} {wrap : PhyStopPt → Point} {ret : State → State}
    (h : q.linesOk s) (hstay : s.edge.linesOk)
    (hwrap : ∀ w q, q.linesOk w → (State.enter w (wrap q)).linesOk)
    (hret : ∀ w, w.clkOut = true → w.datOut = true → (ret w).linesOk) :
    (s.goPhyStop s.edge q wrap ret).linesOk := by
  rcases goPhyStop_cases s s.edge q wrap ret with ⟨-, e⟩ | ⟨rfl, e⟩ | ⟨rfl, e⟩ <;> rw [e]
  · exact hstay
  · exact hwrap _ _ ⟨(edge_clkOut s).trans h, rfl⟩
  · exact hret _ ((edge_clkOut s).trans h.1) ((edge_datOut s).trans h.2)

/-- After a bit cell the data line still carries the cell's bit (R81, R82). -/
theorem afterCell_linesOk {v : Byte} {j : Fin 8} {pos : BytePos} {wrap : SendByteAct → Point}
    {ret : Bool → State → State} (hdat : s.datOut = v.getLsbD (7 - j.val))
    (hwrap : ∀ w v q, SendBytePt.linesOk w v q → (State.enter w (wrap ⟨v, q⟩)).linesOk)
    (hret : ∀ ok w, (ret ok w).linesOk) : (s.afterCell s.edge v j pos wrap ret).linesOk := by
  have hedge : s.edge.datOut = v.getLsbD (7 - j.val) := (edge_datOut s).trans hdat
  unfold State.afterCell
  split_ifs with hj hai
  · refine hwrap _ v (.clockLow (j + 1)) ⟨rfl, fun _ => hedge.trans ?_⟩
    congr 1
    omega
  · exact hret _ _
  · refine hwrap _ v .ackWait ⟨rfl, hedge.trans ?_⟩
    congr 1
    omega

theorem goSendByte_linesOk {a : SendByteAct} {pos : BytePos} {wrap : SendByteAct → Point}
    {ret : Bool → State → State} (h : a.pt.linesOk s a.v) (hstay : s.edge.linesOk)
    (hwrap : ∀ w v q, SendBytePt.linesOk w v q → (State.enter w (wrap ⟨v, q⟩)).linesOk)
    (hret : ∀ ok w, (ret ok w).linesOk) : (s.goSendByte s.edge a pos wrap ret).linesOk := by
  obtain ⟨v, pt⟩ := a
  have delay_linesOk {n : Nat} {k : State → State} (hk : (k s.edge).linesOk) :
      (s.delay s.edge n k).linesOk := by
    rcases delay_cases s s.edge n k with ⟨-, e⟩ | ⟨-, e⟩ <;> rw [e]
    · exact hstay
    · exact hk
  cases pt with
  | clockLow j => exact delay_linesOk (hwrap _ v (.dataLow j) ⟨(edge_clkOut s).trans h.1, rfl⟩)
  | dataLow j => exact delay_linesOk (hwrap _ v (.clockHigh j) ⟨rfl, (edge_datOut s).trans h.2⟩)
  | clockHigh j => exact delay_linesOk (afterCell_linesOk h.2 hwrap hret)
  | ackWait =>
    rw [State.goSendByte]
    rcases wait_cases s s.edge (!s.ai) s.build.ackTimeout (fun ok w =>
        if ok then State.enter { w with clkOut := true } (wrap ⟨v, .ackPulse⟩)
        else ret false (w.raiseFailure 0x31 pos)) with ⟨-, e⟩ | ⟨-, -, e⟩ | ⟨-, -, e⟩ <;> rw [e]
    · exact hwrap _ v .ackPulse ⟨rfl, (edge_datOut s).trans h.2⟩
    · exact hstay
    · exact hret _ _
  | ackPulse => exact delay_linesOk (hret _ _)

theorem afterEdge_linesOk {a : RecvByteAct} {wrap : RecvByteAct → Point}
    {ret : Byte → Bool → State → State} (h : a.pt.linesOk s)
    (hwrap : ∀ w a, RecvBytePt.linesOk w a.pt → (State.enter w (wrap a)).linesOk)
    (hret : ∀ v ok w, (ret v ok w).linesOk) : (s.afterEdge s.edge a wrap ret).linesOk := by
  have hack : s.edge.ackOut = s.ackOut := edge_ackOut s
  obtain ⟨acc, pt⟩ := a
  cases pt with
  | fall j => exact hwrap _ ⟨acc, .rise j⟩ (hack.trans h)
  | rise j =>
    refine hwrap _ ⟨_, _⟩ ?_
    split
    · exact hack.trans h
    · exact hack.trans h
  | ackRequest => exact hwrap _ ⟨acc, .ackRise⟩ rfl
  | ackRise => exact hwrap _ ⟨acc, .ackFall⟩ (hack.trans h)
  | ackFall => exact hret _ _ _

theorem goRecvByte_linesOk {a : RecvByteAct} {pos : BytePos} {wrap : RecvByteAct → Point}
    {ret : Byte → Bool → State → State} (h : a.pt.linesOk s) (hstay : s.edge.linesOk)
    (hwrap : ∀ w a, RecvBytePt.linesOk w a.pt → (State.enter w (wrap a)).linesOk)
    (hret : ∀ v ok w, (ret v ok w).linesOk) : (s.goRecvByte s.edge a pos wrap ret).linesOk := by
  rw [State.goRecvByte]
  rcases wait_cases s s.edge (a.pt.met s.ci) s.build.edgeTimeout (fun ok w =>
      if ok then s.afterEdge w a wrap ret else ret a.acc false (w.raiseFailure a.pt.code pos))
    with ⟨-, e⟩ | ⟨-, -, e⟩ | ⟨-, -, e⟩ <;> rw [e]
  · exact afterEdge_linesOk h hwrap hret
  · exact hstay
  · exact hret _ _ _

/-- A `MsgSend` goes from byte to byte, to the stop condition and on to the next attempt with the
lines at the levels with which each begins (R124). -/
theorem goMsgSend_linesOk {m : MsgSendAct} {wrap : MsgSendAct → Point}
    {ret : Bool → State → State} (h : m.pt.linesOk s) (hstay : s.edge.linesOk)
    (hwrap : ∀ w m, MsgSendPt.linesOk w m.pt → (State.enter w (wrap m)).linesOk)
    (hret : ∀ ok w, (ret ok w).linesOk) : (s.goMsgSend s.edge m wrap ret).linesOk := by
  have begins (w : State) (fail : Bool) (p : Nat) :
      (s.beginFrameByte w m fail p wrap).linesOk :=
    hwrap _ ⟨_, _, _, _, .byte ⟨_, .clockLow 0⟩⟩ ⟨rfl, nofun⟩
  unfold State.goMsgSend
  cases hpt : m.pt with
  | start q =>
    rw [hpt] at h
    exact goPhyStart_linesOk h hstay (fun w q => hwrap w ⟨_, _, _, _, .start q⟩)
      fun w => begins w false 0
  | byte a =>
    rw [hpt] at h
    refine goSendByte_linesOk h hstay (fun w v q => hwrap w ⟨_, _, _, _, .byte ⟨v, q⟩⟩)
      fun ok w => ?_
    unfold State.afterByte
    split
    · exact begins w _ _
    · exact hwrap _ ⟨_, _, _, _, .stop .clock⟩ rfl
  | stop q =>
    rw [hpt] at h
    refine goPhyStop_linesOk h hstay (fun w q => hwrap w ⟨_, _, _, _, .stop q⟩) fun w _ _ => ?_
    unfold State.afterStop
    split_ifs
    · exact hret _ _
    · exact hret _ _
    · exact hwrap _ ⟨_, _, _, _, .start .high⟩ ⟨rfl, rfl⟩

/-- A reception goes on from every byte with the lines at the levels of what follows (R129). -/
theorem afterReception_linesOk {q : MsgReceivePt} {a : RecvByteAct} {pos : Nat}
    (hq : q.byte? = some (a, pos)) (v : Byte) (w : State) :
    (afterReception s q v w).linesOk := by
  have drain (w : State) (k : Nat) : (w.drainFrom k).linesOk := by
    unfold State.drainFrom
    split <;> rfl
  have payload (w : State) (k : Nat) : (w.payloadFrom k).linesOk := by
    unfold State.payloadFrom
    split <;> rfl
  cases q <;> cases hq
  case length | recipient => rfl
  case sender =>
    simp only [afterReception, State.validate]
    split_ifs
    · trivial
    · exact drain _ 0
    · rfl
    · exact payload _ 0
  case drain k => exact drain _ (k + 1)
  case payload k => exact payload _ (k + 1)

theorem goMsgReceive_linesOk {q : MsgReceivePt} (h : q.linesOk s) (hstay : s.edge.linesOk) :
    (s.goMsgReceive s.edge q).linesOk := by
  have settles {k : State → State} (hk : ∀ w, (k w).linesOk) :
      (s.delay s.edge s.build.tSettle k).linesOk := by
    rcases delay_cases s s.edge s.build.tSettle k with ⟨-, e⟩ | ⟨-, e⟩ <;> rw [e]
    · exact hstay
    · exact hk _
  cases q with
  | length a | recipient a | sender a | drain k a | payload k a =>
    rw [goMsgReceive_of_byte s s.edge rfl]
    exact goRecvByte_linesOk h hstay (fun _ _ h => h) fun v _ w => afterReception_linesOk rfl v w
  | oversizeStop p | stop p =>
    exact goPhyStop_linesOk h hstay (fun _ _ h => h) fun _ hclk hdat => ⟨hclk, hdat⟩
  | oversizeSettle | relayAfter => exact settles fun _ => trivial
  | settle =>
    refine settles fun w => ?_
    unfold State.dispose
    split_ifs
    · trivial
    · exact ⟨rfl, rfl, rfl⟩
    · exact ⟨rfl, rfl⟩
    · trivial
  | relayBefore => exact settles fun _ => ⟨rfl, rfl⟩
  | relay m =>
    refine goMsgSend_linesOk h hstay (fun _ _ h => h) fun _ w => ?_
    unfold State.afterRelay
    split
    · exact ⟨rfl, rfl, rfl⟩
    · trivial

end Levels

/-- Settles O47: a step resets, is one cycle of the running micro-program, is the clock edge alone,
or starts an operation. -/
theorem stepKeepsTheWaveformLevels : Obligations.StepKeepsTheWaveformLevels := by
  intro s t hs h
  rcases step_cases h with ⟨-, rfl⟩ | ⟨-, hp, rfl⟩ | ⟨-, -, -, rfl⟩ | ⟨-, -, i, -, rfl⟩
  · trivial
  · have hstay := linesOk_edge hs
    unfold State.linesOk at hs
    unfold State.resume
    cases hpt : s.point with
    | idle => exact absurd hpt hp
    | phyStart q =>
      rw [hpt] at hs
      exact goPhyStart_linesOk hs hstay (fun _ _ h => h) fun _ => trivial
    | phyStop q =>
      rw [hpt] at hs
      exact goPhyStop_linesOk hs hstay (fun _ _ h => h) fun _ _ _ => trivial
    | sendByte a =>
      rw [hpt] at hs
      exact goSendByte_linesOk hs hstay (fun _ _ _ h => h) fun _ _ => trivial
    | recvByte a =>
      rw [hpt] at hs
      exact goRecvByte_linesOk hs hstay (fun _ _ h => h) fun _ _ _ => trivial
    | sendMsg m =>
      rw [hpt] at hs
      exact goMsgSend_linesOk hs hstay (fun _ _ h => h) fun _ _ => trivial
    | receive q =>
      rw [hpt] at hs
      exact goMsgReceive_linesOk hs hstay
  · exact linesOk_edge hs
  · cases i with
    | nop | linesIdle => trivial
    | phyStart | sendMsg => exact ⟨rfl, rfl⟩
    | sendByte => exact ⟨rfl, nofun⟩
    | phyStop | recvByte | msgReceive => rfl

end Sys2Proof.Proofs

/-! ## The cycles of the micro-programs on the lines (R12, R100, R101, R108)

One equation for each timed statement's last cycle, and one for the cycles before it, in which the
counter alone changes. -/

namespace Sys2Proof.Proofs
open Sys2Proof.Machine Sys2Proof.Laws

section LineEquations
variable {t w : State}

/-! ### `PhyStart` -/

section PhyStart
variable {wrap : PhyStartPt → Point} {ret : State → State}

theorem goPhyStart_counts {q : PhyStartPt} (h : t.cnt + 1 < t.build.tDelay) :
    t.goPhyStart w q wrap ret = t.tick w := by
  cases q <;> rw [State.goPhyStart, delay_of_lt t w _ h]

theorem goPhyStart_high (h : t.build.tDelay ≤ t.cnt + 1) :
    t.goPhyStart w .high wrap ret = State.enter { w with datOut := false } (wrap .low) := by
  rw [State.goPhyStart, delay_of_le t w _ h]

theorem goPhyStart_low (h : t.build.tDelay ≤ t.cnt + 1) :
    t.goPhyStart w .low wrap ret = ret w := delay_of_le t w ret h

end PhyStart

/-! ### `PhyStop` -/

section PhyStop
variable {wrap : PhyStopPt → Point} {ret : State → State}

theorem goPhyStop_counts {q : PhyStopPt} (h : t.cnt + 1 < t.build.tDelay) :
    t.goPhyStop w q wrap ret = t.tick w := by
  cases q <;> rw [State.goPhyStop, delay_of_lt t w _ h]

theorem goPhyStop_clock (h : t.build.tDelay ≤ t.cnt + 1) :
    t.goPhyStop w .clock wrap ret = State.enter { w with datOut := true } (wrap .data) := by
  rw [State.goPhyStop, delay_of_le t w _ h]

end PhyStop

/-! ### `SendByte` -/

section SendByte
variable {v : Byte} {j : Fin 8} {pos : BytePos} {wrap : SendByteAct → Point}
  {ret : Bool → State → State}

/-- Before its last cycle a timed statement of `SendByte` only counts, unless it is the wait and
`ai` is 0. -/
theorem goSendByte_counts {pt : SendBytePt} (h : t.cnt + 1 < pt.limit t.build)
    (hwait : ¬(pt = .ackWait ∧ t.ai = false)) :
    t.goSendByte w ⟨v, pt⟩ pos wrap ret = t.tick w := by
  cases pt with
  | ackWait =>
    have hai : t.ai = true := by simpa using hwait
    simp only [State.goSendByte, State.wait, hai]
    exact if_pos h
  | _ => simp only [State.goSendByte]; exact delay_of_lt t w _ h

theorem goSendByte_clockLow : t.goSendByte w ⟨v, .clockLow j⟩ pos wrap ret =
    State.enter { w with datOut := cellBit v j } (wrap ⟨v, .dataLow j⟩) := by
  simp only [State.goSendByte, delay_of_le t w _ (Nat.le_add_left 1 t.cnt)]

theorem goSendByte_dataLow (h : t.build.tUnit ≤ t.cnt + 1) :
    t.goSendByte w ⟨v, .dataLow j⟩ pos wrap ret =
      State.enter { w with clkOut := true } (wrap ⟨v, .clockHigh j⟩) := by
  simp only [State.goSendByte, delay_of_le t w _ h]

theorem goSendByte_clockHigh (h : t.build.tUnit ≤ t.cnt + 1) :
    t.goSendByte w ⟨v, .clockHigh j⟩ pos wrap ret = t.afterCell w v j pos wrap ret := by
  simp only [State.goSendByte, delay_of_le t w _ h]

/-- The clock falls for the next bit cell. -/
theorem goSendByte_nextCell (h : t.build.tUnit ≤ t.cnt + 1) (hj : j.val < 7) :
    t.goSendByte w ⟨v, .clockHigh j⟩ pos wrap ret =
      State.enter { w with clkOut := false } (wrap ⟨v, .clockLow (j + 1)⟩) :=
  (goSendByte_clockHigh h).trans (if_pos hj)

/-- The clock falls for the wait after the last bit cell, with no premature acknowledgement. -/
theorem goSendByte_lastCell (h : t.build.tUnit ≤ t.cnt + 1) (hai : t.ai = true) :
    t.goSendByte w ⟨v, .clockHigh 7⟩ pos wrap ret =
      State.enter { w with clkOut := false } (wrap ⟨v, .ackWait⟩) := by
  rw [goSendByte_clockHigh h, State.afterCell, if_neg (by decide), if_neg (by simp [hai])]

/-- The acknowledgement has come: the 9th pulse. -/
theorem goSendByte_acknowledged (hai : t.ai = false) :
    t.goSendByte w ⟨v, .ackWait⟩ pos wrap ret =
      State.enter { w with clkOut := true } (wrap ⟨v, .ackPulse⟩) := by
  simp only [State.goSendByte]
  exact wait_of_met t w _ _ (by rw [hai]; rfl)

theorem goSendByte_ackPulse (h : t.build.tUnit ≤ t.cnt + 1) :
    t.goSendByte w ⟨v, .ackPulse⟩ pos wrap ret = ret true w := delay_of_le t w _ h

end SendByte

end LineEquations

/-! ## The steps of an attempt (R124, R127)

A `MsgSend` stands in a SEND_MSG or in a relay, and its cycles are the same in both. -/

/-- What follows the return of a `MsgSend`: the end of the SEND_MSG, or of the relay. -/
def afterMsgSend (s : State) : FrameSource → Bool → State → State
  | .tx => State.endSendMsg
  | .frame => fun _ w => s.afterRelay w

theorem msgSendPoint_ne_idle (f : FrameSource) (m : MsgSendAct) : msgSendPoint f m ≠ .idle := by
  cases f <;> nofun

theorem resume_of_msgSend {s : State} {f : FrameSource} {m : MsgSendAct}
    (h : s.point = msgSendPoint f m) (w : State) :
    s.resume w = s.goMsgSend w m (msgSendPoint f) (afterMsgSend s f) := by
  unfold State.resume
  rw [h]
  cases f <;> rfl

section MsgSendEquations
variable {t w : State} {src : FrameSource} {attempt : Nat} {fail : Bool} {p : Nat}
  {wrap : MsgSendAct → Point} {ret : Bool → State → State}

theorem goMsgSend_start {q : PhyStartPt} :
    t.goMsgSend w ⟨src, attempt, fail, p, .start q⟩ wrap ret =
      t.goPhyStart w q (fun q => wrap ⟨src, attempt, fail, p, .start q⟩) fun w =>
        t.beginFrameByte w ⟨src, attempt, fail, p, .start q⟩ false 0 wrap := rfl

theorem goMsgSend_byte {a : SendByteAct} :
    t.goMsgSend w ⟨src, attempt, fail, p, .byte a⟩ wrap ret =
      t.goSendByte w a (.frame p) (fun a => wrap ⟨src, attempt, fail, p, .byte a⟩) fun ok w =>
        t.afterByte w ⟨src, attempt, fail, p, .byte a⟩ ok wrap := rfl

theorem goMsgSend_stop {q : PhyStopPt} :
    t.goMsgSend w ⟨src, attempt, fail, p, .stop q⟩ wrap ret =
      t.goPhyStop w q (fun q => wrap ⟨src, attempt, fail, p, .stop q⟩) fun w =>
        t.afterStop w ⟨src, attempt, fail, p, .stop q⟩ wrap ret := rfl

end MsgSendEquations

/-- Before its last cycle a timed statement of `MsgSend` only counts, unless it is the wait for the
acknowledgement and `ai` is 0. -/
theorem goMsgSend_counts {t w : State} {m : MsgSendAct} {wrap : MsgSendAct → Point}
    {ret : Bool → State → State} (h : t.cnt + 1 < m.limit t.build)
    (hwait : ¬∃ v, m.pt = .byte ⟨v, .ackWait⟩ ∧ t.ai = false) :
    t.goMsgSend w m wrap ret = t.tick w := by
  obtain ⟨src, attempt, fail, p, pt⟩ := m
  cases pt with
  | start q => rw [goMsgSend_start, goPhyStart_counts h]
  | byte a =>
    obtain ⟨v, pt⟩ := a
    rw [goMsgSend_byte, goSendByte_counts h]
    rintro ⟨rfl, hai⟩
    exact hwait ⟨v, rfl, hai⟩
  | stop q => rw [goMsgSend_stop, goPhyStop_counts h]

/-- A running cycle that enters the next control point, and writes the clock and the data line only,
leads to it: it raises no event and so records no failure point. -/
theorem leadsTo_of_resume {s : State} {p : Point} (hr : s.now.rst = false) (hne : s.point ≠ .idle)
    (clk dat : Level)
    (h : s.resume s.edge = State.enter { s.edge with clkOut := clk, datOut := dat } p) :
    s.leadsTo p clk dat :=
  ⟨_, (step_of_running hr hne).trans (congrArg _ h), rfl, rfl, rfl, rfl, edge_ackOut s,
    noFailurePoint_of_sets (own := []) ⟨rfl, rfl, rfl⟩ (sets_none rfl rfl) nofun⟩

/-- The dispatch of a SEND_MSG leads to the start condition of attempt 1 (R124, R128). -/
theorem leadsTo_of_starts_sendMsg {s : State} (h : s.starts .sendMsg) :
    s.leadsTo (.sendMsg ⟨.tx, 1, false, 0, .start .high⟩) true true :=
  ⟨_, step_of_starts h, rfl, rfl, rfl, rfl, edge_ackOut s,
    noFailurePoint_of_sets (own := []) ⟨rfl, rfl, rfl⟩ (sets_none rfl rfl) nofun⟩

section Attempt
variable {t w : State} {m : MsgSendAct} {wrap : MsgSendAct → Point}

/-- After an acknowledged byte but the last, the next byte of the frame begins (R123, R124). -/
theorem afterByte_next (h : m.p + 1 < t.frameCount m.src) : t.afterByte w m true wrap =
    State.enter { w with clkOut := false } (wrap ⟨m.src, m.attempt, m.fail, m.p + 1,
      .byte ⟨t.frameByte m.src (m.p + 1), .clockLow 0⟩⟩) := by
  rw [State.afterByte, if_pos h, Bool.not_true, Bool.or_false]
  rfl

/-- After the last byte, acknowledged, the stop condition begins (R124). -/
theorem afterByte_last (h : t.frameCount m.src ≤ m.p + 1) : t.afterByte w m true wrap =
    State.enter { w with clkOut := true }
      (wrap ⟨m.src, m.attempt, m.fail, m.p, .stop .clock⟩) := by
  rw [State.afterByte, if_neg (not_lt.mpr h), Bool.not_true, Bool.or_false]
  rfl

end Attempt

/-- Settles O58: each step is the equation of its timed statement's last cycle. A line that the step
does not write is as the clock edge leaves it. -/
theorem attemptGoesThroughTheFrame : Obligations.AttemptGoesThroughTheFrame := by
  refine ⟨fun s => leadsTo_of_starts_sendMsg, fun s f m hr hp => ?_⟩
  have hne : s.point ≠ .idle := hp ▸ msgSendPoint_ne_idle f m
  have hgo := resume_of_msgSend hp s.edge
  have leads {p : Point} := leadsTo_of_resume (p := p) hr hne
  obtain ⟨src, attempt, fail, p, pt⟩ := m
  rw [← edge_clkOut s, ← edge_datOut s]
  refine ⟨fun hcnt hwait => ?counts, ?startHigh, ?startLow, ?clockLow, ?dataLow, ?nextCell,
    ?lastCell, ?ackWait, fun v hpt hcnt => ⟨fun hlt => ?nextByte, fun hge => ?lastByte⟩, ?stopClock⟩
  case counts =>
    rw [step_of_running hr hne, hgo, goMsgSend_counts hcnt hwait]
    rfl
  case startHigh =>
    rintro rfl hcnt
    exact leads _ _ (by rw [hgo, goMsgSend_start, goPhyStart_high hcnt])
  case startLow =>
    rintro rfl hcnt
    exact leads _ _ (by rw [hgo, goMsgSend_start, goPhyStart_low hcnt]; rfl)
  case clockLow =>
    rintro v j rfl
    exact leads _ _ (by rw [hgo, goMsgSend_byte, goSendByte_clockLow]; rfl)
  case dataLow =>
    rintro v j rfl hcnt
    exact leads _ _ (by rw [hgo, goMsgSend_byte, goSendByte_dataLow hcnt])
  case nextCell =>
    rintro v j rfl hj hcnt
    exact leads _ _ (by rw [hgo, goMsgSend_byte, goSendByte_nextCell hcnt hj])
  case lastCell =>
    rintro v rfl hcnt hai
    exact leads _ _ (by rw [hgo, goMsgSend_byte, goSendByte_lastCell hcnt hai])
  case ackWait =>
    rintro v rfl hai
    exact leads _ _ (by rw [hgo, goMsgSend_byte, goSendByte_acknowledged hai])
  case nextByte =>
    obtain rfl : pt = _ := hpt
    exact leads _ _ (by rw [hgo, goMsgSend_byte, goSendByte_ackPulse hcnt,
      afterByte_next hlt])
  case lastByte =>
    obtain rfl : pt = _ := hpt
    exact leads _ _ (by rw [hgo, goMsgSend_byte, goSendByte_ackPulse hcnt,
      afterByte_last hge])
  case stopClock =>
    rintro rfl hcnt
    exact leads _ _ (by rw [hgo, goMsgSend_stop, goPhyStop_clock hcnt])

end Sys2Proof.Proofs

/-! ## The waveforms of the start and the stop condition and of a bit cell (R79 to R81)

Each phase of these waveforms is one `DELAY`: while it lasts the levels stand, and its last cycle
runs the segment that begins the next phase. -/

namespace Sys2Proof.Proofs
open Sys2Proof.Machine Sys2Proof.Laws

/-- No reset in the cycles that are left of a run's. -/
theorem noReset_of_run {m n : Nat} {s u : State} (hn : s.noReset (m + n)) (h : run m s = .next u) :
    u.noReset n := by
  obtain ⟨-, hin⟩ := run_environment (noReset_mono hn (Nat.le_add_right m n)) h
  intro x hx
  rw [hin, List.take_drop] at hx
  exact hn x (List.mem_of_mem_drop hx)

/-- No reset in the cycles after an operation's start. -/
theorem noReset_of_starts {s : State} {i : Instr} {n : Nat} (hs : s.starts i)
    (hn : s.noReset (1 + n)) : (startOf i s s.edge).noReset n :=
  noReset_of_run hn (run_succ_of_step (step_of_starts hs))

/-! ### The cycles of a `DELAY` -/

/-- At the control point `p` the operation is at a `DELAY` of `n` cycles, which the segment `next`
follows (R12). -/
structure AtDelay (p : Point) (n : Build → Nat) (next : State → State → State) : Prop where
  running : p ≠ .idle
  resume_eq : ∀ t w : State, t.point = p → t.resume w = t.delay w (n t.build) (next t)

/-- The run of `n` cycles from `s` comes to `u` at the same control point, with the same levels. -/
structure Held (s : State) (n : Nat) (u : State) : Prop where
  run_eq : run n s = .next u
  point_eq : u.point = s.point
  cnt_eq : u.cnt = s.cnt + n
  clk_eq : u.clkOut = s.clkOut
  dat_eq : u.datOut = s.datOut
  ack_eq : u.ackOut = s.ackOut
  diagLast_eq : u.diagLast = s.diagLast

/-- A `DELAY` of `n` cycles from its first on: the levels stand in each, up to its last, `u`, and
`v` comes after it. -/
structure Elapses (s : State) (n : Nat) (u v : State) : Prop where
  held : ∀ k, k < n → ∃ w, Held s k w
  last : Held s (n - 1) u
  run_eq : run n s = .next v
  build_eq : v.build = s.build

section Delay
variable {s : State} {n : Build → Nat} {next : State → State → State}

/-- A step in the cycle that a run has come to within the `DELAY`. -/
theorem AtDelay.run_succ {k : Nat} {u : State} (h : AtDelay s.point n next) (hu : Held s k u)
    (hn : s.noReset (k + 1)) :
    run (k + 1) s = .next (u.delay u.edge (n s.build) (next u)) := by
  have hbuild := (run_environment (noReset_mono hn (Nat.le_succ k)) hu.run_eq).1
  rw [run_succ_of_run hu.run_eq, step_of_running (now_rst_of_run hn hu.run_eq)
    (hu.point_eq ▸ h.running), h.resume_eq u u.edge hu.point_eq, hbuild]

theorem AtDelay.held {k : Nat} (h : AtDelay s.point n next) (hn : s.noReset k)
    (hlt : s.cnt + k < n s.build) : ∃ u, Held s k u := by
  induction k with
  | zero => exact ⟨s, rfl, rfl, rfl, rfl, rfl, rfl, rfl⟩
  | succ k ih =>
    obtain ⟨u, hu⟩ := ih (noReset_mono hn (Nat.le_succ k)) (by omega)
    have hcnt := hu.cnt_eq
    have hrun := h.run_succ hu hn
    rw [delay_of_lt _ _ _ (by omega)] at hrun
    exact ⟨u.tick u.edge, hrun, by simp [hu.point_eq], by simp; omega, by simp [hu.clk_eq],
      by simp [hu.dat_eq], by simp [hu.ack_eq], by simp [hu.diagLast_eq]⟩

theorem AtDelay.elapses {l : Nat} (h : AtDelay s.point n next) (hcnt : s.cnt = 0)
    (hlen : n s.build = l) (hpos : 1 ≤ l) (hn : s.noReset l) :
    ∃ u, Elapses s l u (next u u.edge) := by
  have held (k : Nat) (hk : k < l) : ∃ w, Held s k w := h.held (noReset_mono hn hk.le) (by omega)
  obtain ⟨k, rfl⟩ := Nat.exists_eq_add_of_le' hpos
  obtain ⟨u, hu⟩ := held k (Nat.lt_succ_self k)
  have hcnt' := hu.cnt_eq
  have hrun := h.run_succ hu hn
  rw [delay_of_le _ _ _ (by omega)] at hrun
  exact ⟨u, held, hu, hrun, (run_environment hn hrun).1⟩

end Delay

/-! ### PHY_START and PHY_STOP -/

theorem atDelay_phyStart_high : AtDelay (.phyStart .high) Build.tDelay fun _ w =>
    State.enter { w with datOut := false } (.phyStart .low) :=
  ⟨nofun, fun t w hp => by simp only [State.resume, hp]; rfl⟩

theorem atDelay_phyStart_low : AtDelay (.phyStart .low) Build.tDelay fun _ w =>
    w.endCommand false := ⟨nofun, fun t w hp => by simp only [State.resume, hp]; rfl⟩

theorem atDelay_phyStop_clock : AtDelay (.phyStop .clock) Build.tDelay fun _ w =>
    State.enter { w with datOut := true } (.phyStop .data) :=
  ⟨nofun, fun t w hp => by simp only [State.resume, hp]; rfl⟩

theorem atDelay_phyStop_data : AtDelay (.phyStop .data) Build.tDelay fun _ w =>
    w.endCommand false := ⟨nofun, fun t w hp => by simp only [State.resume, hp]; rfl⟩

theorem endCommand_cmdDone (w : State) (failed : Bool) :
    (w.endCommand failed).flag .cmdDone = true := by
  have hsets : sets w (w.endCommand failed) [.cmdDone] := sets_one .cmdDone rfl rfl
  rw [hsets .cmdDone]
  simp

/-- A command of two `DELAY`s of `l` cycles, of which the second begins with the data line at `d`
and ends the command: the levels of each cycle, and the completion (R79, R80, R97). -/
theorem twoDelays_waveform {s : State} {p : Point} {d : Level} {l : Nat}
    (hfirst : AtDelay s.point Build.tDelay fun _ w => State.enter { w with datOut := d } p)
    (hsecond : AtDelay p Build.tDelay fun _ w => w.endCommand false) (hcnt : s.cnt = 0)
    (hlen : s.build.tDelay = l) (hpos : 1 ≤ l) (hn : s.noReset (2 * l)) :
    (∀ k, k < 2 * l → ∃ u, run k s = .next u ∧ u.point = (if k < l then s.point else p) ∧
      u.clkOut = s.clkOut ∧ u.datOut = (if k < l then s.datOut else d) ∧ u.ackOut = s.ackOut) ∧
    ∃ u, run (2 * l) s = .next u ∧ u.point = .idle ∧
      u.clkOut = s.clkOut ∧ u.datOut = d ∧ u.ackOut = s.ackOut ∧
      u.cmdAct = false ∧ u.cmdResult = 0x00 ∧ u.flag .cmdDone = true ∧
      u.diagLast = s.diagLast := by
  rw [Nat.two_mul] at hn ⊢
  obtain ⟨u, hu⟩ := hfirst.elapses hcnt hlen hpos (noReset_mono hn (Nat.le_add_right l l))
  obtain ⟨v, hv⟩ := AtDelay.elapses (s := State.enter { u.edge with datOut := d } p) hsecond rfl
    (hu.build_eq ▸ hlen) hpos (noReset_of_run hn hu.run_eq)
  have hrun {k : Nat} := run_add (n := k) hu.run_eq
  refine ⟨fun k hk => ?_, _, hrun.trans hv.run_eq, rfl, ?_, ?_, ?_, rfl, rfl,
    endCommand_cmdDone v.edge false, ?_⟩
  · rcases lt_or_ge k l with hlt | hge
    · obtain ⟨w, hw⟩ := hu.held k hlt
      exact ⟨w, hw.run_eq, by simp [hlt, hw.point_eq], hw.clk_eq, by simp [hlt, hw.dat_eq],
        hw.ack_eq⟩
    · obtain ⟨j, rfl⟩ := Nat.exists_eq_add_of_le hge
      obtain ⟨w, hw⟩ := hv.held j (by omega)
      exact ⟨w, hrun.trans hw.run_eq, by simp [hw.point_eq], by simp [hw.clk_eq, hu.last.clk_eq],
        by simp [hw.dat_eq], by simp [hw.ack_eq, hu.last.ack_eq]⟩
  · simp [hv.last.clk_eq, hu.last.clk_eq]
  · simp [hv.last.dat_eq]
  · simp [hv.last.ack_eq, hu.last.ack_eq]
  · simp [hv.last.diagLast_eq, hu.last.diagLast_eq]

/-- Settles O23: the data line is high for the first `DELAY` and low for the second. -/
theorem phyStartMakesAStartCondition : Obligations.PhyStartMakesAStartCondition := by
  intro s hs hpos hn
  obtain ⟨hlevels, u, hrun, hidle, hclk, hdat, hack, hend⟩ :=
    twoDelays_waveform (s := startOf .phyStart s s.edge) atDelay_phyStart_high atDelay_phyStart_low
      rfl (by simp) hpos (noReset_of_starts hs hn)
  refine ⟨_, exec_of_starts hs, fun k hk => ?_, u, hrun, hidle, hclk, hdat, by simp [hack],
    by simpa using hend⟩
  obtain ⟨w, hrun, hp, hclk, hdat, hack⟩ := hlevels k hk
  refine ⟨w, hrun, ?_, hclk, by simp [hdat], by simp [hack]⟩
  rw [hp]
  split <;> rfl

/-- Settles O24: the data line stands for the first `DELAY` and is high for the second. -/
theorem phyStopMakesAStopCondition : Obligations.PhyStopMakesAStopCondition := by
  intro s hs hpos hn
  obtain ⟨hlevels, u, hrun, hidle, hclk, hdat, hack, hend⟩ :=
    twoDelays_waveform (s := startOf .phyStop s s.edge) atDelay_phyStop_clock atDelay_phyStop_data
      rfl (by simp) hpos (noReset_of_starts hs hn)
  refine ⟨_, exec_of_starts hs, fun k hk => ?_, u, hrun, hidle, hclk, hdat, by simp [hack],
    by simpa using hend⟩
  obtain ⟨w, hrun, hp, hclk, hdat, hack⟩ := hlevels k hk
  refine ⟨w, hrun, ?_, hclk, by simp [hdat], by simp [hack]⟩
  rw [hp]
  split <;> rfl

/-! ### A bit cell of any `SendByte` -/

/-- `wrap` places a `SendByte` where the operation that runs is in one, of the byte at `pos`, which
`ret` follows. -/
structure Calls (pos : BytePos) (wrap : SendByteAct → Point)
    (ret : State → SendByteAct → Bool → State → State) : Prop where
  sending_eq : ∀ a, (wrap a).sending? = some a
  resume_eq : ∀ (t w : State) (a : SendByteAct), t.point = wrap a →
    t.resume w = t.goSendByte w a pos wrap (ret t a)

theorem calls_alone : Calls .alone .sendByte fun _ _ => State.endSendByte :=
  ⟨fun _ => rfl, fun t w a hp => by simp only [State.resume, hp]⟩

theorem calls_msgSend (f src : FrameSource) (attempt : Nat) (fail : Bool) (p : Nat) :
    Calls (.frame p) (fun a => msgSendPoint f ⟨src, attempt, fail, p, .byte a⟩) fun t a ok w =>
      t.afterByte w ⟨src, attempt, fail, p, .byte a⟩ ok (msgSendPoint f) :=
  ⟨fun _ => by cases f <;> rfl, fun _ w _ hp => (resume_of_msgSend hp w).trans goMsgSend_byte⟩

/-- A `SendByte` runs in a SEND_BYTE, in a SEND_MSG or in a relay. -/
theorem calls_of_sending {p : Point} {a : SendByteAct} (h : p.sending? = some a) :
    ∃ pos wrap ret, Calls pos wrap ret ∧ p = wrap a := by
  unfold Point.sending? at h
  split at h <;> cases h
  · exact ⟨_, _, _, calls_alone, rfl⟩
  · exact ⟨_, _, _, calls_msgSend .tx _ _ _ _, rfl⟩
  · exact ⟨_, _, _, calls_msgSend .frame _ _ _ _, rfl⟩

section Calls
variable {pos : BytePos} {wrap : SendByteAct → Point}
  {ret : State → SendByteAct → Bool → State → State} {v : Byte} {j : Fin 8}

theorem Calls.ne_idle (h : Calls pos wrap ret) (a : SendByteAct) : wrap a ≠ .idle := by
  intro hidle
  have hnone := h.sending_eq a
  rw [hidle] at hnone
  cases hnone

theorem Calls.atDelay_clockLow (h : Calls pos wrap ret) :
    AtDelay (wrap ⟨v, .clockLow j⟩) (fun _ => 1) fun _ w =>
      State.enter { w with datOut := cellBit v j } (wrap ⟨v, .dataLow j⟩) :=
  ⟨h.ne_idle _, fun t w hp => h.resume_eq t w _ hp⟩

theorem Calls.atDelay_dataLow (h : Calls pos wrap ret) :
    AtDelay (wrap ⟨v, .dataLow j⟩) Build.tUnit fun _ w =>
      State.enter { w with clkOut := true } (wrap ⟨v, .clockHigh j⟩) :=
  ⟨h.ne_idle _, fun t w hp => h.resume_eq t w _ hp⟩

theorem Calls.atDelay_clockHigh (h : Calls pos wrap ret) :
    AtDelay (wrap ⟨v, .clockHigh j⟩) Build.tUnit fun t w =>
      t.afterCell w v j pos wrap (ret t ⟨v, .clockHigh j⟩) :=
  ⟨h.ne_idle _, fun t w hp => h.resume_eq t w _ hp⟩

end Calls

/-- Settles O25: the three `DELAY`s of a bit cell, and after them the next cell's clock fall. -/
theorem bitCellWaveform : Obligations.BitCellWaveform := by
  intro s v j hsend hcnt hlow hpos hn
  obtain ⟨pos, wrap, ret, hcalls, hp⟩ := calls_of_sending hsend
  have hcycles : 1 + 2 * s.build.tUnit = 1 + s.build.tUnit + s.build.tUnit := by omega
  rw [hcycles] at hn ⊢
  have hn2 := noReset_mono hn (Nat.le_add_right _ s.build.tUnit)
  obtain ⟨u, hu⟩ := AtDelay.elapses (s := s) (hp ▸ hcalls.atDelay_clockLow) hcnt rfl le_rfl
    (noReset_mono hn2 (Nat.le_add_right 1 _))
  obtain ⟨v', hv⟩ := AtDelay.elapses
    (s := State.enter { u.edge with datOut := cellBit v j } (wrap ⟨v, .dataLow j⟩))
    hcalls.atDelay_dataLow rfl (congrArg Build.tUnit hu.build_eq) hpos
    (noReset_of_run hn2 hu.run_eq)
  have hrun2 := (run_add hu.run_eq).trans hv.run_eq
  obtain ⟨w, hw⟩ := AtDelay.elapses
    (s := State.enter { v'.edge with clkOut := true } (wrap ⟨v, .clockHigh j⟩))
    hcalls.atDelay_clockHigh rfl (congrArg Build.tUnit (hv.build_eq.trans hu.build_eq)) hpos
    (noReset_of_run hn hrun2)
  refine ⟨fun k hk => ?_, fun hj => ⟨_, (run_add hrun2).trans hw.run_eq, ?_⟩⟩
  · rcases lt_or_ge k (1 + s.build.tUnit) with hlt | hge
    · cases k with
      | zero => exact ⟨s, rfl, by simpa using hlow, rfl⟩
      | succ i =>
        obtain ⟨x, hx⟩ := hv.held i (by omega)
        have hclk : ¬s.build.tUnit < i + 1 := by omega
        rw [Nat.add_comm i 1] at hclk ⊢
        exact ⟨x, (run_add hu.run_eq).trans hx.run_eq,
          by simp [hx.clk_eq, hu.last.clk_eq, hlow, hclk], by simp [hx.dat_eq, cellBit]⟩
    · obtain ⟨i, rfl⟩ := Nat.exists_eq_add_of_le hge
      obtain ⟨x, hx⟩ := hw.held i (by omega)
      have hclk : s.build.tUnit < 1 + s.build.tUnit + i := by omega
      exact ⟨x, (run_add hrun2).trans hx.run_eq, by simp [hx.clk_eq, hclk],
        by simp [hx.dat_eq, hv.last.dat_eq, cellBit]⟩
  · rw [State.afterCell, if_pos hj]
    exact ⟨hcalls.sending_eq _, rfl, rfl⟩

end Sys2Proof.Proofs

/-! ## The bytes of a relay (R123, R136)

The sources of a relay's frame are FRAME's, and no cycle of the relay writes FRAME. -/

namespace Sys2Proof.Proofs
open Sys2Proof.Machine Sys2Proof.Laws

/-- What each step keeps, as long as its next state has the property `Q`, holds at the end of a run
without reset through states with `Q`. -/
theorem holds_along_run {P Q : State → Prop}
    (hkeeps : ∀ u v : State, P u → u.now.rst = false → step u = .next v → Q v → P v)
    {s u : State} {n : Nat} (hs : P s) (hn : s.noReset n)
    (hrun : ∀ i, i ≤ n → ∃ w, run i s = .next w ∧ Q w) (hu : run n s = .next u) : P u := by
  induction n generalizing u with
  | zero => cases hu; exact hs
  | succ n ih =>
    obtain ⟨v, hv, -⟩ := hrun n (Nat.le_succ n)
    obtain ⟨u', hu', hq⟩ := hrun (n + 1) le_rfl
    cases hu.symm.trans hu'
    rw [run_succ_of_run hv] at hu
    exact hkeeps v u (ih (noReset_mono hn (Nat.le_succ n))
      (fun i hi => hrun i (hi.trans (Nat.le_succ n))) hv) (now_rst_of_run hn hv) hu hq

/-- A cycle of a relay leaves the sources of its frame alone. -/
theorem Cycle.relay_sources {t w u : State} {m : MsgSendAct}
    (h : Cycle t w (.receive (.relay m)) u) : SameSources w u := by
  cases h <;> constructor <;> simp

/-- In the state `u` a relay runs that ran in `s`: the sources of its frame stand as they stood
there, and it sends FRAME. -/
def RelaysFrom (s u : State) : Prop :=
  SameSources s u ∧ ∃ m, u.point = .receive (.relay m) ∧ m.src = .frame ∧ sendsItsByte u m

theorem relaysFrom_of_inv {s : State} {m : MsgSendAct} (hs : s.Inv)
    (hp : s.point = .receive (.relay m)) : RelaysFrom s s := by
  have hok := hs.point_ok
  rw [hp] at hok
  obtain ⟨-, hsrc, -, -, hpt⟩ := hok
  refine ⟨⟨rfl, rfl, rfl, rfl, rfl, rfl, rfl, rfl, rfl⟩, m, hp, hsrc, fun a ha => ?_⟩
  rw [ha] at hpt
  exact hpt.2

/-- A cycle in which the relay's `MsgSend` goes on. -/
theorem RelaysFrom.step {s u v : State} (h : RelaysFrom s u) (hr : u.now.rst = false)
    (hstep : step u = .next v) (hv : v.point.inSend = true) : RelaysFrom s v := by
  obtain ⟨hsame, m, hp, hsrc, hbyte⟩ := h
  have hne : u.point ≠ .idle := by rw [hp]; nofun
  rw [step_of_running hr hne] at hstep
  cases hstep
  have hcycle := resume_cycle u u.edge hne
  rw [hp] at hcycle
  have hsame' : SameSources u (u.resume u.edge) :=
    (sameSources_edge (busy_of_point hne)).trans
      ((sameSources_recordFailure u.edge _).trans hcycle.relay_sources)
  refine ⟨hsame.trans hsame', ?_⟩
  have hgo := resume_of_msgSend (f := .frame) hp u.edge
  have hsend := goMsgSend_sendCycle u u.edge m (msgSendPoint .frame) (afterMsgSend u .frame)
  rw [← hgo] at hsend
  generalize u.resume u.edge = v at hsend hsame' hv ⊢
  cases hsend with
  | counts => exact ⟨m, (edge_point u).trans hp, hsrc, (hsame'.sendsItsByte m).mpr hbyte⟩
  | enters w m' hsrc' hgo =>
    exact ⟨m', rfl, hsrc'.trans hsrc, (hsame'.sendsItsByte m').mpr (hgo hbyte)⟩
  | returns ok w =>
    simp only [afterMsgSend, State.afterRelay] at hv
    split at hv <;> cases hv

/-- The frame of a relay, as FRAME holds it (R123). -/
theorem frameByte_frame (s : State) (p : Nat) : s.frameByte .frame p =
    wireByte s.frameLen s.frameDest s.frameSrc (fun k => s.framePay.read k) p := by
  rcases p with _ | _ | _ | k <;> rfl

/-- Settles O57: every cycle of the relay keeps FRAME and begins only bytes of it. -/
theorem relaySendsTheReceivedFrame : Obligations.RelaySendsTheReceivedFrame := by
  intro s u n m m' a hs hn hp hrun hu hp' hm'
  obtain ⟨hsame, m₁, hp₁, hsrc, hbyte⟩ : RelaysFrom s u :=
    holds_along_run (fun _ _ h hr hstep hv => h.step hr hstep hv) (relaysFrom_of_inv hs hp) hn
      hrun hu
  have hm₁ : m₁ = m' := by simpa using hp₁.symm.trans hp'
  rw [← hm₁] at hm' ⊢
  rw [hbyte a hm', hsrc, hsame.frameByte, frameByte_frame]

end Sys2Proof.Proofs

/-! ## The main loop (R89 to R99)

What ends `IDLE_POLL` is in the equations of `fetch` and `poll`, what a cycle does with `di_prev` in
`step_environment`, and what a running operation can do in `Cycle`. -/

namespace Sys2Proof.Proofs
open Sys2Proof.Machine Sys2Proof.Laws

/-! ### The start condition (R91) -/

theorem startDet_eq_true_iff (s : State) :
    s.startDet = true ↔ s.ci = true ∧ s.diPrev = true ∧ s.di = false := by
  simp [State.startDet, and_assoc]

/-- Settles O5: every operation leaves `di_prev` as the clock edge takes it from `di`. -/
theorem startDetectionSeesTheFall : Obligations.StartDetectionSeesTheFall := by
  intro s t hr h
  obtain ⟨-, -, -, -, hprev, -⟩ := step_environment hr h
  rw [startDet_eq_true_iff, hprev]

/-- Only the start condition has the trigger pattern of a reception (R77). -/
theorem trigger_of_startDet {s : State} (h : s.startDet = true) : s.trigger = 0b110#3 := by
  obtain ⟨hci, hprev, hdi⟩ := (startDet_eq_true_iff s).mp h
  simp [State.trigger, hci, hprev, hdi]

/-! ### A running operation (R99) -/

/-- A cycle of a running operation stays in that operation or ends it. -/
theorem Cycle.idle_or_same_instr {t w u : State} {p : Point} (h : Cycle t w p u)
    (hw : w.point = p) : u.point = .idle ∨ u.point.instr = p.instr := by
  cases h <;> simp [hw, Point.instr]

theorem recordFailure_point (w : State) (f : Option (Byte × Byte)) :
    (recordFailure w f).point = w.point := by
  obtain ⟨e0, e1, code, pos, count, hframe⟩ := recordFailure_frame w f
  rw [hframe]

/-- Settles O6: away from `IDLE_POLL` both `exec` and `step` are the running operation's cycle. -/
theorem runningOperationGoesOn : Obligations.RunningOperationGoesOn := by
  intro s i hr hp
  have hstep : step s = .next (s.resume s.edge) := step_of_running hr hp
  have hw : (recordFailure s.edge (s.point.failure s)).point = s.point :=
    (recordFailure_point _ _).trans (edge_point s)
  refine ⟨?_, _, hstep, (resume_cycle s s.edge hp).idle_or_same_instr hw⟩
  rw [hstep, exec_eq, operate_of_running _ hp]

/-! ### What ends `IDLE_POLL` (R90) -/

/-- A start condition is polled first, and it is the one of a reception. -/
theorem poll_of_start {s : State} (hauto : s.autoRx = true) (hdet : s.startDet = true) :
    s.poll = some (.instr .msgReceive) := by
  simp [State.poll, hauto, hdet, trigger_of_startDet hdet, decodeLine]

theorem poll_of_no_start {s : State} (h : ¬(s.autoRx = true ∧ s.startDet = true)) :
    s.poll = if s.pendValid then some (decodeCmd (0#4 ++ s.pendOp)) else none := by
  simp [State.poll, h]

/-- The polled operation starts in this cycle. -/
theorem step_of_poll {s : State} {i : Instr} (hr : s.now.rst = false) (hp : s.point = .idle)
    (h : s.poll = some (.instr i)) : step s = exec i s :=
  step_of_fetch hr ((fetch_of_idle hp).trans h)

theorem step_of_no_poll {s : State} (hr : s.now.rst = false) (hp : s.point = .idle)
    (h : s.poll = none) : step s = .next s.edge := by
  simp [step, hr, fetch_of_idle hp, h, State.idleCycle]

/-- A pending command outlasts the clock edge: a CMD write beside it is rejected (R93). -/
theorem edge_of_pending {s : State} (h : s.pendValid = true) :
    s.edge.pendValid = true ∧ s.edge.pendOp = s.pendOp := by
  obtain ⟨-, -, -, -, hvalid, hop⟩ := hostAccess_of_busy s (by simp [State.busy, h])
  exact ⟨hvalid.trans h, hop⟩

/-- Settles O4: the poll looks for a start condition, then for a pending command. -/
theorem startConditionGoesBeforeCommand : Obligations.StartConditionGoesBeforeCommand := by
  refine ⟨fun s hno => ?_, fun s hr hp => ⟨fun ⟨hauto, hdet⟩ => ?_, fun hno hpend i hi => ?_,
    fun hno hpend => ?_⟩⟩
  · rw [edge_eq, hostAccess_of_no_write s hno]
    rfl
  · have hpoll : s.poll = some (.instr .msgReceive) := poll_of_start hauto hdet
    have hexec := exec_of_starts ⟨hr, hp, hpoll⟩
    refine ⟨_, (step_of_poll hr hp hpoll).trans hexec, hexec, rfl, fun hpend => ?_⟩
    obtain ⟨hvalid, hop⟩ := edge_of_pending hpend
    exact ⟨hvalid, hop, rfl⟩
  · exact step_of_poll hr hp (by rw [poll_of_no_start hno, if_pos hpend, hi])
  · exact step_of_no_poll hr hp (by simp [poll_of_no_start hno, hpend])

/-! ### CMD writes (R93 to R95) -/

/-- The command words: RSV 0000 and an opcode of the map (R72 to R74). -/
theorem decodeCmd_decodes_iff (d : Byte) :
    (∃ i, decodeCmd d = .instr i) ↔ cmdRsv d = 0#4 ∧ (cmdOp d).toNat ≤ 6 := by
  simp only [decodeCmd_eq_instr_iff, exists_and_left, decodeOp_decodes_iff]

theorem decodeCmd_eq_sendMsg_iff (d : Byte) :
    decodeCmd d = .instr .sendMsg ↔ cmdRsv d = 0#4 ∧ cmdOp d = 1#4 := by
  rw [decodeCmd_eq_instr_iff, decodeOp_eq_instr_iff, opOf, Option.some_inj, eq_comm (a := 1#4)]

/-- A CMD write that meets BUSY = 0 is illegal for its RSV, for its OP, or as a SEND_MSG of a
message that is too long (R94). -/
theorem cmdVerdict_illegal_iff {s : State} (hb : s.busy = false) (d : Byte) :
    s.cmdVerdict d = .illegal ↔ cmdRsv d ≠ 0#4 ∨ 7 ≤ (cmdOp d).toNat ∨
      (cmdOp d = 1#4 ∧ s.build.maxLen < s.txLen.toNat) := by
  have hdecodes := decodeCmd_decodes_iff d
  have hsend := decodeCmd_eq_sendMsg_iff d
  unfold State.cmdVerdict
  rw [hb]
  cases hd : decodeCmd d with
  | rejected e =>
    have hreserved : cmdRsv d ≠ 0#4 ∨ 7 ≤ (cmdOp d).toNat := by
      by_contra! hlegal
      obtain ⟨i, hi⟩ := hdecodes.mpr ⟨hlegal.1, Nat.le_of_lt_succ hlegal.2⟩
      cases hd.symm.trans hi
    exact iff_of_true rfl (hreserved.imp id .inl)
  | instr i =>
    obtain ⟨hrsv, hop⟩ := hdecodes.mp ⟨i, hd⟩
    cases i with
    | sendMsg =>
      have hone : cmdOp d = 1#4 := (hsend.mp hd).2
      simp [hrsv, hone]
    | _ =>
      have hone : cmdOp d ≠ 1#4 := fun h => by simpa [hd] using hsend.mpr ⟨hrsv, h⟩
      have hlt : ¬7 ≤ (cmdOp d).toNat := by omega
      simp [hrsv, hone, hlt]

/-- BUSY is looked at before the byte is (R93). -/
theorem cmdVerdict_rejected_iff (s : State) (d : Byte) :
    s.cmdVerdict d = .rejected ↔ s.busy = true := by
  unfold State.cmdVerdict
  cases s.busy with
  | true => simp
  | false =>
    cases decodeCmd d with
    | rejected e => simp
    | instr i =>
      cases i with
      | sendMsg => simp only [Bool.false_eq_true, if_false]; split_ifs <;> simp
      | _ => simp

theorem writeCmd_of_busy {s : State} (hb : s.busy = true) (d : Byte) :
    s.writeCmd d = s.raise .cmdRejected := by
  simp [State.writeCmd, (cmdVerdict_rejected_iff s d).mpr hb]

theorem writeCmd_of_illegal {s : State} {d : Byte} (h : s.cmdVerdict d = .illegal) :
    s.writeCmd d = s.raise .cmdIllegal := by
  simp [State.writeCmd, h]

/-- A CMD write that meets BUSY = 0 and is not illegal is accepted (R95). -/
theorem writeCmd_of_legal {s : State} {d : Byte} (hb : s.busy = false)
    (h : s.cmdVerdict d ≠ .illegal) :
    s.writeCmd d = { s with pendValid := true, pendOp := cmdOp d } := by
  cases hv : s.cmdVerdict d with
  | rejected => simp [(cmdVerdict_rejected_iff s d).mp hv] at hb
  | illegal => exact absurd hv h
  | accepted => simp [State.writeCmd, hv]

/-- Settles O10: the write only raises an event. -/
theorem busyCmdWriteIsRejected : Obligations.BusyCmdWriteIsRejected :=
  fun _ _ d hw hb h => step_of_raising_write hw (writeCmd_of_busy hb d) h

/-- Settles O11: the three illegal words are those with the verdict `illegal`. -/
theorem illegalCmdWriteIsRefused : Obligations.IllegalCmdWriteIsRefused :=
  fun _ _ d hw hb h hd =>
    step_of_raising_write hw (writeCmd_of_illegal ((cmdVerdict_illegal_iff hb d).mpr hd)) h

/-- The segment of a cycle at BUSY = 0 does not see the pending latch. -/
theorem segment_pending {s : State} {g : State → State} (hb : s.busy = false)
    (hg : segment s = some g) (v : State) (valid : Bool) (op : BitVec 4) :
    g { v with pendValid := valid, pendOp := op } =
      { g v with pendValid := valid, pendOp := op } := by
  rcases segment_of_not_busy hb hg with rfl | rfl <;> rfl

/-- Settles O12: the segment of the cycle passes the latch through. -/
theorem legalCmdWriteIsLatched : Obligations.LegalCmdWriteIsLatched := by
  intro s t d hw hb h hrsv hop hfits
  have hr : s.now.rst = false := hw.1
  have hlegal : s.cmdVerdict d ≠ .illegal := by
    rw [Ne, cmdVerdict_illegal_iff hb]
    rintro (h | h | h)
    · exact h hrsv
    · exact absurd hop (not_lt.mpr h)
    · exact hfits h
  obtain ⟨g, hg, rfl⟩ := (step_next_iff ((noAccess_rst s).trans hr)).mp h
  rw [segment_noAccess] at hg
  have hwrite : s.writeReg (regAt 0x001) d = { s with pendValid := true, pendOp := cmdOp d } :=
    writeCmd_of_legal hb hlegal
  have hlatched : g s.edge = { g s.noAccess.edge with pendValid := true, pendOp := cmdOp d } := by
    rw [edge_of_writes hw, hwrite, noAccess_edge]
    exact segment_pending hb hg (clocked s s) true (cmdOp d)
  exact ⟨_, (step_next_iff hr).mpr ⟨g, hg, rfl⟩, hlatched, by simp [hlatched, State.busy]⟩

/-! ### Commands that complete at once (R97, R98, R102, R105) -/

/-- Settles O21: NOP's start is its whole cycle. -/
theorem nopCompletesAtOnce : Obligations.NopCompletesAtOnce := by
  intro s hp
  rw [exec_eq, operate_of_idle _ hp, startOf_nop]
  simp [State.enter, State.raise, Event.mask0, Event.mask1]

/-- Settles O22: LINES_IDLE's start is its whole cycle. -/
theorem linesIdleCompletesAtOnce : Obligations.LinesIdleCompletesAtOnce := by
  intro s hp
  rw [exec_eq, operate_of_idle _ hp, startOf_linesIdle]
  simp [State.enter, State.raise, State.linesIdle, Event.mask0, Event.mask1]

end Sys2Proof.Proofs

/-! ## Failed bytes of an attempt (R112, R124, R141)

What a failing cycle records is said by O59 for every operation; here stands how its `MsgSend` goes
on. -/

namespace Sys2Proof.Proofs
open Sys2Proof.Machine Sys2Proof.Laws

/-- The cycle in which a `SendByte` fails records the failure and returns (R108, R141). -/
theorem goSendByte_of_failure {t : State} {a : SendByteAct} {code : Byte}
    (hf : a.pt.failure t = some code) (w : State) (pos : BytePos) (wrap : SendByteAct → Point)
    (ret : Bool → State → State) :
    t.goSendByte w a pos wrap ret = ret false (recordFailure w (some (code, pos.code))) := by
  rcases goSendByte_cases t w a pos wrap ret with ⟨-, hnone, -⟩ | ⟨_, _, _, hnone, -⟩ | e
  · rw [hf] at hnone; cases hnone
  · rw [hf] at hnone; cases hnone
  · rw [e, hf]; rfl

/-- The two failures of a `SendByte`: a premature acknowledgement in the last cycle of the last bit
cell, and an acknowledgement that does not come (R108, R142). -/
theorem sendByte_failure_eq_some {s : State} {q : SendBytePt}
    (h : q = .clockHigh 7 ∧ s.build.tUnit ≤ s.cnt + 1 ∧ s.ai = false ∨
      q = .ackWait ∧ s.build.ackTimeout ≤ s.cnt + 1 ∧ s.ai = true) :
    q.failure s = some (if q = .ackWait then 0x31 else 0x30) := by
  rcases h with ⟨rfl, hcnt, hai⟩ | ⟨rfl, hcnt, hai⟩
  · exact if_pos ⟨rfl, hcnt, hai⟩
  · exact if_pos ⟨hcnt, hai⟩

/-- The failure of a byte of a `MsgSend` is recorded with its frame position (R48). -/
theorem failure_of_msgSend {s : State} {f : FrameSource} {m : MsgSendAct} {a : SendByteAct}
    {code : Byte} (hm : m.pt = .byte a) (hf : a.pt.failure s = some code) :
    Point.failure s (msgSendPoint f m) = some (code, framePos m.p) := by
  have hsend : m.failure s = some (code, framePos m.p) := by
    simp only [MsgSendAct.failure, hm, hf, Option.map_some]
  cases f <;> exact hsend

/-- Settles O33: the cycle returns the byte as failed, and the attempt goes on as after any byte. -/
theorem failedByteDoesNotEndTheAttempt : Obligations.FailedByteDoesNotEndTheAttempt := by
  intro s f m v q hr hp hm hcause
  have hfail : q.failure s = some (if q = .ackWait then 0x31 else 0x30) :=
    sendByte_failure_eq_some hcause
  have hstep := step_of_running hr (hp ▸ msgSendPoint_ne_idle f m)
  have hrecorded := eachFailureIsRecordedWhereItOccurs s _ hr hstep
  rw [hp, failure_of_msgSend hm hfail] at hrecorded
  have hgo : s.resume s.edge = s.afterByte
      (recordFailure s.edge (some (if q = .ackWait then 0x31 else 0x30, framePos m.p))) m false
      (msgSendPoint f) := by
    obtain ⟨src, attempt, fail, p, pt⟩ := m
    cases hm
    rw [resume_of_msgSend hp, goMsgSend_byte, goSendByte_of_failure hfail]
    rfl
  obtain ⟨e0, e1, code, pos, count, hframe⟩ :=
    recordFailure_frame s.edge (some (if q = .ackWait then 0x31 else 0x30, framePos m.p))
  rw [hframe, State.afterByte, Bool.not_false, Bool.or_true] at hgo
  refine ⟨_, hstep, ?_, hrecorded, ?_⟩
  · rw [hgo]; split <;> rfl
  rw [hgo]
  split
  · rename_i hlt
    exact ⟨edge_datOut s, edge_ackOut s, fun _ => ⟨rfl, rfl⟩,
      fun hge => absurd hlt (not_lt.mpr hge)⟩
  · rename_i hge
    exact ⟨edge_datOut s, edge_ackOut s, fun hlt => absurd hlt hge, fun _ => ⟨rfl, rfl⟩⟩

end Sys2Proof.Proofs

/-! ## The data line while a byte is sent (R81, R110) -/

namespace Sys2Proof.Proofs
open Sys2Proof.Machine Sys2Proof.Laws

/-- The levels that the waveform of the running `SendByte` shows (R81). -/
theorem linesOk_of_sending {s : State} {a : SendByteAct} (hs : s.linesOk)
    (h : s.point.sending? = some a) : a.pt.linesOk s a.v := by
  unfold State.linesOk at hs
  unfold Point.sending? at h
  split at h <;> cases h <;> rename_i hp <;> rw [hp] at hs <;> exact hs

/-- After a byte the attempt goes on with the data line as it is (R124). -/
theorem afterByte_datOut (t w : State) (m : MsgSendAct) (ok : Bool) (wrap : MsgSendAct → Point) :
    (t.afterByte w m ok wrap).datOut = w.datOut := by
  unfold State.afterByte
  split <;> rfl

/-- The running `SendByte`, in whichever operation; its caller leaves the data line alone. -/
theorem calls_of_sending_datOut {p : Point} {a : SendByteAct} (h : p.sending? = some a) :
    ∃ pos wrap ret, Calls pos wrap ret ∧ p = wrap a ∧
      ∀ t a ok w, (ret t a ok w).datOut = w.datOut := by
  unfold Point.sending? at h
  split at h <;> cases h
  · exact ⟨_, _, _, calls_alone, rfl, fun _ _ _ _ => rfl⟩
  · exact ⟨_, _, _, calls_msgSend .tx _ _ _ _, rfl, fun _ _ _ _ => afterByte_datOut _ _ _ _ _⟩
  · exact ⟨_, _, _, calls_msgSend .frame _ _ _ _, rfl, fun _ _ _ _ => afterByte_datOut _ _ _ _ _⟩

/-- A `SendByte` writes the data line in the first cycle of a bit cell only (R81, R108). -/
theorem goSendByte_datOut {t w : State} {a : SendByteAct} {pos : BytePos}
    {wrap : SendByteAct → Point} {ret : Bool → State → State} (hpt : ∀ j, a.pt ≠ .clockLow j)
    (hret : ∀ ok w, (ret ok w).datOut = w.datOut) :
    (t.goSendByte w a pos wrap ret).datOut = w.datOut := by
  obtain ⟨v, pt⟩ := a
  have delay_datOut {n : Nat} {k : State → State} (hk : (k w).datOut = w.datOut) :
      (t.delay w n k).datOut = w.datOut := by
    rcases delay_cases t w n k with ⟨-, e⟩ | ⟨-, e⟩ <;> rw [e]
    · rfl
    · exact hk
  cases pt with
  | clockLow j => exact absurd rfl (hpt j)
  | dataLow j => exact delay_datOut rfl
  | clockHigh j =>
    refine delay_datOut ?_
    rcases afterCell_cases t w v j pos wrap ret with ⟨-, pt, e⟩ | ⟨-, -, e⟩ <;> rw [e]
    · rfl
    · simp [hret]
  | ackWait =>
    rw [State.goSendByte]
    rcases wait_cases t w (!t.ai) t.build.ackTimeout (fun ok w =>
        if ok then State.enter { w with clkOut := true } (wrap ⟨v, .ackPulse⟩)
        else ret false (w.raiseFailure 0x31 pos)) with ⟨-, e⟩ | ⟨-, -, e⟩ | ⟨-, -, e⟩ <;> rw [e]
    · rfl
    · rfl
    · simp [hret]
  | ackPulse => exact delay_datOut (hret true w)

/-- Settles O48: only the first cycle of a bit cell writes the data line, and it leaves the clock
line low. -/
theorem dataChangesOnlyWithTheClockLow : Obligations.DataChangesOnlyWithTheClockLow := by
  intro s t a hs hr hsend hstep hdat
  have hlines := linesOk_of_sending hs hsend
  obtain ⟨pos, wrap, ret, hcalls, hp, hret⟩ := calls_of_sending_datOut hsend
  rw [step_of_running hr (hp ▸ hcalls.ne_idle a), hcalls.resume_eq s s.edge a hp] at hstep
  cases hstep
  by_cases hpt : ∃ j, a.pt = .clockLow j
  · obtain ⟨v, pt⟩ := a
    obtain ⟨j, rfl⟩ := hpt
    rw [goSendByte_clockLow]
    exact ⟨hlines.1, (edge_clkOut s).trans hlines.1⟩
  · refine absurd ?_ hdat
    rw [goSendByte_datOut (not_exists.mp hpt) (hret s a), edge_datOut]

end Sys2Proof.Proofs

/-! ## The partial byte of a reception (R114, R116) -/

namespace Sys2Proof.Proofs
open Sys2Proof.Machine Sys2Proof.Laws

/-- The `RecvByte` at a control point, if there is one, has the accumulator of a partial byte. -/
def holdsPartialByte (p : Point) : Prop := ∀ a, p.receiving? = some a → a.accOk

theorem holdsPartialByte_of_none {p : Point} (h : p.receiving? = none) : holdsPartialByte p := by
  intro a ha
  rw [h] at ha
  cases ha

theorem holdsPartialByte_of_some {p : Point} {a : RecvByteAct} (h : p.receiving? = some a)
    (ha : a.accOk) : holdsPartialByte p := by
  intro a' ha'
  rw [h] at ha'
  cases ha'
  exact ha

theorem firstWait_accOk : firstWait.accOk := ⟨by decide, rfl⟩

/-- A sampled bit takes the free bit 0 and moves up, with the bits before it, in the byte (R116). -/
theorem sampleBit_accOk {acc : Byte} {j : Fin 8} (h : RecvByteAct.accOk ⟨acc, .rise j⟩)
    (di : Level) : RecvByteAct.accOk
      ⟨sampleBit acc j di, if j.val < 7 then .fall (j + 1) else .ackRequest⟩ := by
  obtain ⟨hlt, hzero⟩ := h
  unfold sampleBit
  split_ifs with hj
  · refine ⟨?_, by simp⟩
    have hor : (acc ||| zext8 di).toNat < 2 ^ (j.val + 1) := by
      rw [BitVec.toNat_or]
      refine Nat.or_lt_two_pow hlt ?_
      calc (zext8 di).toNat < 2 ^ 1 := by cases di <;> decide
        _ ≤ 2 ^ (j.val + 1) := Nat.pow_le_pow_right (by decide) (by omega)
    have hnext : (j + 1).val = j.val + 1 := by omega
    rw [hnext, BitVec.toNat_shiftLeft, Nat.shiftLeft_eq, pow_succ 2 (j.val + 1)]
    exact lt_of_le_of_lt (Nat.mod_le _ _) (by omega)
  · trivial

/-- A cycle of a `RecvByte` keeps the partial byte, if its caller goes on from every state with a
partial byte or none. -/
theorem goRecvByte_holdsPartialByte {t w : State} {a : RecvByteAct} {pos : BytePos}
    {wrap : RecvByteAct → Point} {ret : Byte → Bool → State → State} (ha : a.accOk)
    (hstay : holdsPartialByte w.point) (hwrap : ∀ a, (wrap a).receiving? = some a)
    (hret : ∀ v ok w, holdsPartialByte (ret v ok w).point) :
    holdsPartialByte (t.goRecvByte w a pos wrap ret).point := by
  rw [State.goRecvByte]
  rcases wait_cases t w (a.pt.met t.ci) t.build.edgeTimeout (fun ok w =>
      if ok then t.afterEdge w a wrap ret else ret a.acc false (w.raiseFailure a.pt.code pos))
    with ⟨-, e⟩ | ⟨-, -, e⟩ | ⟨-, -, e⟩ <;> rw [e]
  · obtain ⟨acc, pt⟩ := a
    cases pt with
    | fall j => exact holdsPartialByte_of_some (hwrap ⟨acc, .rise j⟩) ha
    | rise j => exact holdsPartialByte_of_some (hwrap ⟨_, _⟩) (sampleBit_accOk ha t.di)
    | ackRequest => exact holdsPartialByte_of_some (hwrap ⟨acc, .ackRise⟩) trivial
    | ackRise => exact holdsPartialByte_of_some (hwrap ⟨acc, .ackFall⟩) trivial
    | ackFall => exact hret _ _ _
  · exact hstay
  · exact hret _ _ _

/-- The `RecvByte` of a reception stands in the operation's control point. -/
theorem receiving_of_byte {q : MsgReceivePt} {a : RecvByteAct} {pos : Nat}
    (hq : q.byte? = some (a, pos)) : Point.receiving? (.receive q) = some a := by
  cases q <;> cases hq <;> rfl

theorem receiving_of_no_byte {q : MsgReceivePt} (hq : q.byte? = none) :
    Point.receiving? (.receive q) = none := by
  cases q <;> cases hq <;> rfl

theorem receiving_atByte {q : MsgReceivePt} {a : RecvByteAct} {pos : Nat}
    (hq : q.byte? = some (a, pos)) (a' : RecvByteAct) :
    Point.receiving? (.receive (atByte q a')) = some a' := by
  cases q <;> cases hq <;> rfl

/-- After a byte of a reception a statement begins: it is no `RecvByte`, or the first wait of one,
with ACK_OUT at 1 (R114, R129). -/
def beginsAfterByte (u : State) : Prop :=
  u.cnt = 0 ∧ (u.point.receiving? = none ∨ u.point.receiving? = some firstWait ∧ u.ackOut = true)

theorem drainFrom_begins (w : State) (k : Nat) : beginsAfterByte (w.drainFrom k) := by
  unfold State.drainFrom
  split
  · exact ⟨rfl, .inr ⟨rfl, rfl⟩⟩
  · exact ⟨rfl, .inl rfl⟩

theorem payloadFrom_begins (w : State) (k : Nat) : beginsAfterByte (w.payloadFrom k) := by
  unfold State.payloadFrom
  split
  · exact ⟨rfl, .inr ⟨rfl, rfl⟩⟩
  · exact ⟨rfl, .inl rfl⟩

theorem afterReception_begins (t : State) {q : MsgReceivePt} {a : RecvByteAct} {pos : Nat}
    (hq : q.byte? = some (a, pos)) (v : Byte) (w : State) :
    beginsAfterByte (afterReception t q v w) := by
  cases q <;> cases hq
  case length | recipient => exact ⟨rfl, .inr ⟨rfl, rfl⟩⟩
  case sender =>
    simp only [afterReception, State.validate]
    split_ifs
    · exact ⟨rfl, .inl rfl⟩
    · exact drainFrom_begins _ 0
    · exact ⟨rfl, .inl rfl⟩
    · exact payloadFrom_begins _ 0
  case drain k => exact drainFrom_begins _ (k + 1)
  case payload k => exact payloadFrom_begins _ (k + 1)

theorem afterReception_holdsPartialByte (t : State) {q : MsgReceivePt} {a : RecvByteAct} {pos : Nat}
    (hq : q.byte? = some (a, pos)) (v : Byte) (w : State) :
    holdsPartialByte (afterReception t q v w).point := by
  obtain ⟨-, hnone | ⟨hfirst, -⟩⟩ := afterReception_begins t hq v w
  · exact holdsPartialByte_of_none hnone
  · exact holdsPartialByte_of_some hfirst firstWait_accOk

/-- An operation that is not at a `RecvByte` does not come to one within a cycle. -/
theorem Cycle.receiving_of_none {t w u : State} {p : Point} (h : Cycle t w p u)
    (hw : w.point = p) (hp : p.receiving? = none) : u.point.receiving? = none := by
  cases h with
  | tick => rw [← hw] at hp; exact hp
  | byteWait q a pos a' ack hq => rw [receiving_of_byte hq] at hp; cases hp
  | oversizeNext p q' dat hq => rcases hq with ⟨p', rfl⟩ | rfl <;> rfl
  | stopNext p q' dat hq => rcases hq with ⟨p', rfl⟩ | rfl <;> rfl
  | recvByte | recvByteEnd | length | recipient | staleEcho | oversizeDrain | oversizeStop | fits
  | empty | drainNext | drainEnd | payloadNext | payloadEnd => cases hp
  | _ => rfl

/-- Settles O49: a cycle of a `RecvByte` samples a bit, waits or returns; a `RecvByte` that begins
has sampled none. -/
theorem stepKeepsThePartialByte : Obligations.StepKeepsThePartialByte := by
  intro s t hs h
  have hedge : holdsPartialByte s.edge.point := by rw [edge_point]; exact hs
  rcases step_cases h with ⟨-, rfl⟩ | ⟨-, hne, rfl⟩ | ⟨-, -, -, rfl⟩ | ⟨-, -, i, -, rfl⟩
  · exact holdsPartialByte_of_none rfl
  · cases hp : s.point with
    | recvByte a =>
      simp only [State.resume, hp]
      exact goRecvByte_holdsPartialByte (hs a (by rw [hp]; rfl)) hedge (fun _ => rfl)
        fun _ _ _ => holdsPartialByte_of_none rfl
    | receive q =>
      cases hq : q.byte? with
      | some b =>
        obtain ⟨a, pos⟩ := b
        simp only [State.resume, hp]
        rw [goMsgReceive_of_byte s s.edge hq]
        exact goRecvByte_holdsPartialByte (hs a (by rw [hp]; exact receiving_of_byte hq)) hedge
          (receiving_atByte hq) fun v _ w => afterReception_holdsPartialByte s hq v w
      | none =>
        exact holdsPartialByte_of_none ((resume_cycle s s.edge hne).receiving_of_none
          ((recordFailure_point _ _).trans (edge_point s))
          (by rw [hp]; exact receiving_of_no_byte hq))
    | _ =>
      exact holdsPartialByte_of_none ((resume_cycle s s.edge hne).receiving_of_none
        ((recordFailure_point _ _).trans (edge_point s)) (by rw [hp]; rfl))
  · exact hedge
  · cases i with
    | recvByte | msgReceive => exact holdsPartialByte_of_some rfl firstWait_accOk
    | _ => exact holdsPartialByte_of_none rfl

end Sys2Proof.Proofs

/-! ## The bytes of a reception (R129 to R132) -/

namespace Sys2Proof.Proofs
open Sys2Proof.Machine Sys2Proof.Laws

/-- The cycle in which a `RecvByte` returns, with a timeout or complete: it hands over its
accumulator, and writes ACK_OUT and the record of a failure only (R114, R116). -/
theorem goRecvByte_returns {t : State} {a : RecvByteAct}
    (h : a.pt.failure t ≠ none ∨ (a.pt = .ackFall ∧ t.ci = false)) (w : State) (pos : BytePos)
    (wrap : RecvByteAct → Point) (ret : Byte → Bool → State → State) :
    ∃ ok e0 e1 last p count ack, t.goRecvByte w a pos wrap ret = ret a.acc ok { w with
      event0 := e0, event1 := e1, diagLast := last, diagPos := p, diagCount := count,
      ackOut := ack } := by
  rcases h with hf | ⟨hpt, hci⟩
  · rcases goRecvByte_cases t w a pos wrap ret with ⟨-, hnone, -⟩ | ⟨_, _, hnone, -⟩ | ⟨ack, e⟩
    · exact absurd hnone hf
    · exact absurd hnone hf
    · obtain ⟨e0, e1, last, p, count, hframe⟩ :=
        recordFailure_frame w ((a.pt.failure t).map fun c => (c, pos.code))
      exact ⟨_, e0, e1, last, p, count, ack, by rw [e, hframe]⟩
  · obtain ⟨acc, pt⟩ := a
    cases hpt
    rw [State.goRecvByte, wait_of_met _ _ _ _ (by rw [hci]; rfl)]
    exact ⟨true, _, _, _, _, _, true, rfl⟩

/-- The drain and the payload begin their next byte or the stop condition. -/
theorem drainFrom_point (w : State) (k : Nat) : (w.drainFrom k).point =
    if k < w.frameLen.toNat then .receive (.drain k firstWait)
    else .receive (.oversizeStop .clock) := by
  unfold State.drainFrom
  split <;> rfl

theorem payloadFrom_point (w : State) (k : Nat) : (w.payloadFrom k).point =
    if k < w.frameLen.toNat then .receive (.payload k firstWait) else .receive (.stop .clock) := by
  unfold State.payloadFrom
  split <;> rfl

/-- What a reception does after the header (R129, R130, R132): `w` is the state with the sender
byte in FRAME. -/
theorem validate_point (t w : State) : (t.validate w).point =
    if w.frameSrc = w.build.nodeId ∧ w.frameDest ≠ w.build.nodeId then .idle
    else if w.build.maxLen < w.frameLen.toNat then
      if t.drainOversize = true then .receive (.drain 0 firstWait)
      else .receive (.oversizeStop .clock)
    else if w.frameLen = 0 then .receive (.stop .clock)
    else .receive (.payload 0 firstWait) := by
  unfold State.validate
  split_ifs with hstale hlen hdrain hzero
  · rfl
  · exact (drainFrom_point _ 0).trans (if_pos (Nat.zero_lt_of_lt hlen))
  · rfl
  · exact (payloadFrom_point _ 0).trans (if_neg (by simp [hzero]))
  · have hpos : 0 < w.frameLen.toNat :=
      Nat.pos_of_ne_zero fun h => hzero (BitVec.eq_of_toNat_eq h)
    exact (payloadFrom_point _ 0).trans (if_pos hpos)

/-- The validation leaves FRAME alone. -/
theorem validate_frameSrc (t w : State) : (t.validate w).frameSrc = w.frameSrc := by
  unfold State.validate State.drainFrom State.payloadFrom
  split_ifs <;> rfl

theorem drainFrom_framePay (w : State) (k : Nat) : (w.drainFrom k).framePay = w.framePay := by
  unfold State.drainFrom
  split <;> rfl

theorem payloadFrom_framePay (w : State) (k : Nat) :
    (w.payloadFrom k).framePay = w.framePay := by
  unfold State.payloadFrom
  split <;> rfl

/-- Settles O60: the cycle hands the accumulator to the reception, which stores it and goes on. -/
theorem receivedByteIsUsedAsItStands : Obligations.ReceivedByteIsUsedAsItStands := by
  intro s q a p hr hp hq hreturns
  have hstep := step_of_running hr (by rw [hp]; nofun)
  simp only [State.resume, hp] at hstep
  rw [goMsgReceive_of_byte s s.edge hq] at hstep
  obtain ⟨ok, e0, e1, last, pos, count, ack, hgo⟩ := goRecvByte_returns hreturns s.edge (.frame p)
    (fun a => .receive (atByte q a)) (fun v _ w => afterReception s q v w)
  rw [hgo] at hstep
  obtain ⟨hcnt, hnext⟩ := afterReception_begins s hq a.acc { s.edge with
    event0 := e0, event1 := e1, diagLast := last, diagPos := pos, diagCount := count,
    ackOut := ack }
  refine ⟨_, hstep, hcnt, fun h => (hnext.resolve_left h).2, ?length, ?recipient, ?sender, ?drain,
    ?payload⟩
  case length => rintro rfl; exact ⟨rfl, rfl⟩
  case recipient => rintro rfl; exact ⟨rfl, rfl⟩
  case sender =>
    rintro rfl
    refine ⟨validate_frameSrc _ _, (validate_point _ _).trans ?_⟩
    simp only [edge_build, edge_frameDest, edge_frameLen, firstWait]
  case drain =>
    rintro k rfl
    refine ⟨(drainFrom_framePay _ _).trans (edge_framePay s), (drainFrom_point _ _).trans ?_⟩
    simp only [edge_frameLen, firstWait]
  case payload =>
    rintro k rfl
    refine ⟨fun hwf => ?_, (payloadFrom_point _ _).trans ?_⟩
    · simp only [afterReception, payloadFrom_framePay, edge_framePay]
      exact read_write_same hwf k a.acc
    · simp only [edge_frameLen, firstWait]

end Sys2Proof.Proofs

/-! ## The cycles of a byte command (R108, R111, R114)

SEND_BYTE and RECV_BYTE are followed cycle by cycle from their dispatch: `RunsTo` collects what the
cycles so far have kept, `RunsAt` says where the command is. -/

namespace Sys2Proof.Proofs
open Sys2Proof.Machine Sys2Proof.Laws

/-! ### Runs of a byte command -/

/-- The outputs that a byte command does not drive have in `u` the levels that they have in `s`. -/
def keepsLines (i : Instr) (s u : State) : Prop :=
  (i = .sendByte → u.ackOut = s.ackOut) ∧
    (i = .recvByte → u.clkOut = s.clkOut ∧ u.datOut = s.datOut)

theorem keepsLines_trans {i : Instr} {s u v : State} (h : keepsLines i s u)
    (h' : keepsLines i u v) : keepsLines i s v :=
  ⟨fun hi => (h'.1 hi).trans (h.1 hi),
    fun hi => ⟨(h'.2 hi).1.trans (h.2 hi).1, (h'.2 hi).2.trans (h.2 hi).2⟩⟩

/-- Every cycle of a byte command, from its dispatch on, leaves the other outputs alone. -/
theorem keepsLines_of_step {i : Instr} {s t : State} (hr : s.now.rst = false)
    (hf : s.fetch = some (.instr i)) (h : step s = .next t) : keepsLines i s t := by
  rw [step_of_fetch hr hf] at h
  constructor
  · rintro rfl
    rw [exec_sendByte_frame hf h]
    exact edge_ackOut s
  · rintro rfl
    rw [exec_recvByte_frame hf h]
    exact ⟨edge_clkOut s, edge_datOut s⟩

theorem fetch_of_instr {s : State} {i : Instr} (h : s.point.instr = some i) :
    s.fetch = some (.instr i) := by
  simp [State.fetch, h]

/-- The cycle in which an operation starts records no failure point (R142). -/
theorem noFailurePoint_of_starts {i : Instr} {s : State} (hs : s.starts i) :
    noFailurePoint s (startOf i s s.edge) := by
  have h := eachFailureIsRecordedWhereItOccurs s _ hs.1 (step_of_starts hs)
  rw [hs.2.1] at h
  exact h

/-- From its dispatch in `s`, operation `i` has come to `u` in `n` cycles; none of them recorded a
failure point, and in each the other outputs had the levels of `s`. -/
structure RunsTo (i : Instr) (s : State) (n : Nat) (u : State) : Prop where
  run_eq : run n s = .next u
  lines : keepsLines i s u
  diagLast_eq : u.diagLast = s.diagLast
  diagPos_eq : u.diagPos = s.diagPos
  cycles : ∀ k, 1 ≤ k → k < n → ∃ x y, run k s = .next x ∧ step x = .next y ∧
    x.point.instr = some i ∧ keepsLines i s x ∧ noFailurePoint x y

section Runs
variable {i : Instr} {s u : State} {n : Nat}

theorem runsTo_of_starts (hs : s.starts i) : RunsTo i s 1 (startOf i s s.edge) where
  run_eq := run_succ_of_step (step_of_starts hs)
  lines := keepsLines_of_step hs.1 ((fetch_of_idle hs.2.1).trans hs.2.2) (step_of_starts hs)
  diagLast_eq := (noFailurePoint_of_starts hs).1
  diagPos_eq := (noFailurePoint_of_starts hs).2.1
  cycles _ h1 h2 := absurd h2 (not_lt.mpr h1)

/-- The cycle that a run has come to. -/
theorem RunsTo.step_eq (h : RunsTo i s n u) (hn : s.noReset (n + 1)) (hi : u.point.instr = some i) :
    step u = .next (u.resume u.edge) :=
  step_of_running (now_rst_of_run hn h.run_eq) (by rintro hp; rw [hp] at hi; cases hi)

/-- One more cycle, in which the operation runs and meets no failure. -/
theorem RunsTo.next (h : RunsTo i s n u) (hn : s.noReset (n + 1)) (hi : u.point.instr = some i)
    (hf : u.point.failure u = none) : RunsTo i s (n + 1) (u.resume u.edge) := by
  have hr := now_rst_of_run hn h.run_eq
  have hstep := h.step_eq hn hi
  have hquiet := eachFailureIsRecordedWhereItOccurs u _ hr hstep
  rw [hf] at hquiet
  exact {
    run_eq := (run_succ_of_run h.run_eq).trans hstep
    lines := keepsLines_trans h.lines (keepsLines_of_step hr (fetch_of_instr hi) hstep)
    diagLast_eq := hquiet.1.trans h.diagLast_eq
    diagPos_eq := hquiet.2.1.trans h.diagPos_eq
    cycles := fun k h1 hk => by
      rcases Nat.lt_succ_iff_lt_or_eq.mp hk with hlt | rfl
      · exact h.cycles k h1 hlt
      · exact ⟨u, _, h.run_eq, hstep, hi, h.lines, hquiet⟩ }

/-- All the cycles of an operation, counted from the one after its dispatch, if its `n`-th one is
the last and does `P`. -/
theorem RunsTo.all_cycles {t v : State} {P : State → State → Prop} (h : RunsTo i s n u)
    (hstart : step s = .next t) (hi : u.point.instr = some i) (hlast : step u = .next v)
    (hP : P u v) : ∀ k, k < n → ∃ x y, run k t = .next x ∧ step x = .next y ∧
      x.point.instr = some i ∧ keepsLines i s x ∧
      (k + 1 = n → P x y) ∧ (k + 1 ≠ n → noFailurePoint x y) := by
  intro k hk
  rw [← run_succ_of_step hstart]
  by_cases hkn : k + 1 = n
  · subst hkn
    exact ⟨u, v, h.run_eq, hlast, hi, h.lines, fun _ => hP, fun hne => absurd rfl hne⟩
  · obtain ⟨x, y, hx, hxy, hxi, hxl, hquiet⟩ := h.cycles (k + 1) (by omega) (by omega)
    exact ⟨x, y, hx, hxy, hxi, hxl, fun he => absurd he hkn, fun _ => hquiet⟩

/-- The waveforms are shown along a run (R79 to R82). -/
theorem run_linesOk (hs : s.linesOk) (hrun : run n s = .next u) : u.linesOk := by
  induction n generalizing s with
  | zero => cases hrun; exact hs
  | succ n ih =>
    obtain ⟨v, hstep, hrun⟩ := step_of_run_succ hrun
    exact ih (stepKeepsTheWaveformLevels s v hs hstep) hrun

theorem linesOk_of_idle (hp : s.point = .idle) : s.linesOk := by
  rw [State.linesOk, hp]
  trivial

end Runs

/-- A state at the control point `p` with the counter at `c`, in the `n`-th cycle after `s`. -/
structure InCycle (s : State) (p : Point) (n c : Nat) (u : State) : Prop where
  point_eq : u.point = p
  cnt_eq : u.cnt = c
  build_eq : u.build = s.build
  ci_eq : u.ci = s.ciAt n
  di_eq : u.di = s.diAt n
  ai_eq : u.ai = s.aiAt n

/-- In its `n`-th cycle the operation dispatched in `s` is at the control point `p` with the counter
at `c`. -/
def RunsAt (i : Instr) (s : State) (p : Point) (n c : Nat) : Prop :=
  ∃ u, RunsTo i s n u ∧ u.point = p ∧ u.cnt = c

section RunsAt
variable {i : Instr} {s : State} {p p' : Point} {n c c' : Nat}

theorem RunsAt.inCycle (h : RunsAt i s p n c) (hs : s.syncsOk) (hn : s.noReset n) :
    ∃ u, RunsTo i s n u ∧ InCycle s p n c u := by
  obtain ⟨u, hu, hp, hc⟩ := h
  obtain ⟨hci, hdi, hai⟩ := synchroniserDelay n s u hs hn hu.run_eq
  exact ⟨u, hu, hp, hc, (run_environment hn hu.run_eq).1, hci, hdi, hai⟩

/-- One cycle without a failure. -/
theorem RunsAt.next (h : RunsAt i s p n c) (hs : s.syncsOk) (hn : s.noReset (n + 1))
    (hi : p.instr = some i)
    (hgo : ∀ u, InCycle s p n c u → p.failure u = none ∧
      (u.resume u.edge).point = p' ∧ (u.resume u.edge).cnt = c') :
    RunsAt i s p' (n + 1) c' := by
  obtain ⟨u, hu, hin⟩ := h.inCycle hs (noReset_mono hn (Nat.le_succ n))
  obtain ⟨hf, hp', hc'⟩ := hgo u hin
  rw [← hin.point_eq] at hi hf
  exact ⟨_, hu.next hn hi hf, hp', hc'⟩

/-- `m` cycles without a failure in which the timed statement only counts. -/
theorem RunsAt.counts {m : Nat} (h : RunsAt i s p n c) (hs : s.syncsOk) (hn : s.noReset (n + m))
    (hi : p.instr = some i)
    (hgo : ∀ k u, k < m → InCycle s p (n + k) (c + k) u → p.failure u = none ∧
      u.resume u.edge = u.tick u.edge) :
    RunsAt i s p (n + m) (c + m) := by
  induction m with
  | zero => exact h
  | succ m ih =>
    have hm := ih (noReset_mono hn (by omega)) fun k u hk => hgo k u (by omega)
    refine hm.next hs hn hi fun u hu => ?_
    obtain ⟨hf, e⟩ := hgo m u (Nat.lt_succ_self m) hu
    exact ⟨hf, by simp [e, hu.point_eq], by simp [e, hu.cnt_eq]; omega⟩

end RunsAt

/-! ### SEND_BYTE (R108, R111) -/

section Sending
variable {s : State} {v : Byte} {pt pt' : SendBytePt} {n c : Nat}

/-- In its `n`-th cycle the SEND_BYTE of `v` is at `pt`, with the counter at `c`. -/
abbrev SendsAt (s : State) (v : Byte) (pt : SendBytePt) (n c : Nat) : Prop :=
  RunsAt .sendByte s (.sendByte ⟨v, pt⟩) n c

theorem resume_sendByte {t : State} {a : SendByteAct} (h : t.point = .sendByte a) (w : State) :
    t.resume w = t.goSendByte w a .alone .sendByte State.endSendByte := by
  simp only [State.resume, h]

/-- No failure is met before the last cycle of a timed statement of `SendByte` (R142). -/
theorem sendByte_failure_of_lt {t : State} (h : t.cnt + 1 < pt.limit t.build) :
    pt.failure t = none := by
  cases pt with
  | clockHigh j => exact if_neg fun hf => absurd hf.2.1 (not_le.mpr h)
  | ackWait => exact if_neg fun hf => absurd hf.1 (not_le.mpr h)
  | _ => rfl

theorem sendByte_point_failure {t : State} (h : pt.failure t = none) :
    Point.failure t (.sendByte ⟨v, pt⟩) = none := by
  simp only [Point.failure, h, Option.map_none]

/-- A timed statement of SEND_BYTE counts up to its last cycle; the wait does so while `ai` is 1. -/
theorem SendsAt.counts {m : Nat} (h : SendsAt s v pt n c) (hs : s.syncsOk)
    (hn : s.noReset (n + m)) (hlt : c + m < pt.limit s.build)
    (hwait : pt = .ackWait → ∀ k, k < m → s.aiAt (n + k) = true) :
    SendsAt s v pt (n + m) (c + m) := by
  refine RunsAt.counts h hs hn rfl fun k u hk hu => ?_
  have hcnt : u.cnt + 1 < pt.limit u.build := by rw [hu.cnt_eq, hu.build_eq]; omega
  refine ⟨sendByte_point_failure (sendByte_failure_of_lt hcnt), ?_⟩
  rw [resume_sendByte hu.point_eq, goSendByte_counts hcnt]
  rintro ⟨rfl, hai⟩
  rw [hu.ai_eq, hwait rfl k hk] at hai
  cases hai

/-- A cycle of SEND_BYTE that enters its next timed statement. -/
theorem SendsAt.enters (h : SendsAt s v pt n c) (hs : s.syncsOk) (hn : s.noReset (n + 1))
    (hgo : ∀ u, InCycle s (.sendByte ⟨v, pt⟩) n c u → pt.failure u = none ∧
      ∃ w, u.goSendByte u.edge ⟨v, pt⟩ .alone .sendByte State.endSendByte =
        State.enter w (.sendByte ⟨v, pt'⟩)) :
    SendsAt s v pt' (n + 1) 0 := by
  refine RunsAt.next h hs hn rfl fun u hu => ?_
  obtain ⟨hf, w, e⟩ := hgo u hu
  rw [resume_sendByte hu.point_eq, e]
  exact ⟨sendByte_point_failure hf, rfl, rfl⟩

/-- The levels that a SEND_BYTE drives where it is (R81). -/
theorem SendsAt.levels (h : SendsAt s v pt n c) (hp : s.point = .idle) :
    ∃ u, run n s = .next u ∧ pt.linesOk u v := by
  obtain ⟨u, hu, hpoint, -⟩ := h
  exact ⟨u, hu.run_eq, linesOk_of_sending (a := ⟨v, pt⟩)
    (run_linesOk (linesOk_of_idle hp) hu.run_eq) (by rw [hpoint]; rfl)⟩

theorem sendsAt_of_starts (hs : s.starts .sendByte) : SendsAt s s.txByte (.clockLow 0) 1 0 :=
  ⟨_, runsTo_of_starts hs, rfl, rfl⟩

/-! The three phases of a bit cell that begins in cycle `n`, with their cycles. -/

variable {j : Fin 8} {k : Nat}

theorem SendsAt.dataLow (h : SendsAt s v (.clockLow j) n 0) (hs : s.syncsOk)
    (hk : k < s.build.tUnit) (hn : s.noReset (n + 1 + k)) :
    SendsAt s v (.dataLow j) (n + 1 + k) k := by
  have hbegin : SendsAt s v (.dataLow j) (n + 1) 0 :=
    h.enters hs (noReset_mono hn (Nat.le_add_right _ k)) fun u _ => ⟨rfl, _, goSendByte_clockLow⟩
  simpa using hbegin.counts (m := k) hs hn (by simpa [SendBytePt.limit] using hk) nofun

theorem SendsAt.clockHigh (h : SendsAt s v (.clockLow j) n 0) (hs : s.syncsOk)
    (hk : k < s.build.tUnit) (hn : s.noReset (n + 1 + s.build.tUnit + k)) :
    SendsAt s v (.clockHigh j) (n + 1 + s.build.tUnit + k) k := by
  obtain ⟨t, ht⟩ : ∃ t, s.build.tUnit = t + 1 := Nat.exists_eq_add_of_le' (by omega)
  have hcycles : n + 1 + s.build.tUnit = n + 1 + t + 1 := by omega
  rw [hcycles] at hn ⊢
  have hbegin : SendsAt s v (.clockHigh j) (n + 1 + t + 1) 0 := by
    refine (h.dataLow hs (k := t) (by omega) (noReset_mono hn (by omega))).enters hs
      (noReset_mono hn (by omega)) fun u hu => ⟨rfl, _, goSendByte_dataLow ?_⟩
    rw [hu.cnt_eq, hu.build_eq, ht]
  simpa using hbegin.counts (m := k) hs hn (by simpa [SendBytePt.limit] using hk) nofun

/-- The next bit cell begins after `1 + 2*T_UNIT` cycles (R81). -/
theorem SendsAt.nextCell (h : SendsAt s v (.clockLow j) n 0) (hs : s.syncsOk) (hj : j.val < 7)
    (hpos : 1 ≤ s.build.tUnit) (hn : s.noReset (n + (1 + 2 * s.build.tUnit))) :
    SendsAt s v (.clockLow (j + 1)) (n + (1 + 2 * s.build.tUnit)) 0 := by
  obtain ⟨t, ht⟩ : ∃ t, s.build.tUnit = t + 1 := Nat.exists_eq_add_of_le' hpos
  have hcycles : n + (1 + 2 * s.build.tUnit) = n + 1 + s.build.tUnit + t + 1 := by omega
  rw [hcycles] at hn ⊢
  refine (h.clockHigh hs (by omega) (noReset_mono hn (by omega))).enters hs hn fun u hu =>
    ⟨if_neg ?_, _, goSendByte_nextCell ?_ hj⟩
  · rintro ⟨rfl, -⟩
    exact absurd hj (by decide)
  · rw [hu.cnt_eq, hu.build_eq, ht]

/-- Bit cell `j` of a SEND_BYTE begins in this cycle after the dispatch (R81). -/
def cellStart (b : Build) (j : Nat) : Nat := 1 + j * (1 + 2 * b.tUnit)

theorem cellStart_succ (b : Build) (j : Nat) :
    cellStart b (j + 1) = cellStart b j + (1 + 2 * b.tUnit) := by
  simp only [cellStart, Nat.succ_mul]
  omega

theorem cellStart_mono (b : Build) {i j : Nat} (h : i ≤ j) : cellStart b i ≤ cellStart b j :=
  Nat.add_le_add_left (Nat.mul_le_mul_right _ h) 1

/-- The wait follows the eight bit cells (R111). -/
theorem cellStart_eight (b : Build) : cellStart b 8 = b.cells + 1 := Nat.add_comm 1 _

theorem sendsAt_cellStart (hstarts : s.starts .sendByte) (hs : s.syncsOk)
    (hpos : 1 ≤ s.build.tUnit) (hn : s.noReset (cellStart s.build j.val)) :
    SendsAt s s.txByte (.clockLow j) (cellStart s.build j.val) 0 := by
  obtain ⟨j, hj⟩ := j
  induction j with
  | zero => simpa [cellStart] using sendsAt_of_starts hstarts
  | succ j ih =>
    simp only [cellStart_succ] at hn ⊢
    have hbegin := ih (by omega) (noReset_mono hn (Nat.le_add_right _ _))
    have hnext : (⟨j + 1, hj⟩ : Fin 8) = ⟨j, by omega⟩ + 1 := by
      apply Fin.ext
      rw [Fin.val_add_one_of_lt' (by simpa using hj)]
    rw [hnext]
    exact hbegin.nextCell hs (by simp only; omega) hpos hn

/-- The last cycle of the eighth bit cell, in which the premature acknowledgement is looked for
(R108). -/
theorem sendsAt_lastCycle (hstarts : s.starts .sendByte) (hs : s.syncsOk)
    (hpos : 1 ≤ s.build.tUnit) (hn : s.noReset s.build.cells) :
    SendsAt s s.txByte (.clockHigh 7) s.build.cells (s.build.tUnit - 1) := by
  have hcycles : s.build.cells =
      cellStart s.build 7 + 1 + s.build.tUnit + (s.build.tUnit - 1) := by
    simp only [Build.cells, cellStart]
    omega
  rw [hcycles] at hn ⊢
  exact (sendsAt_cellStart hstarts hs hpos (noReset_mono hn (by simp; omega))).clockHigh hs
    (by omega) hn

/-- With `ai` at 1 in that cycle the wait for the acknowledgement begins, and goes on while `ai` is
1. -/
theorem sendsAt_ackWait (hstarts : s.starts .sendByte) (hs : s.syncsOk) (hpos : 1 ≤ s.build.tUnit)
    (hn : s.noReset (s.build.cells + 1 + k)) (hk : k < s.build.ackTimeout)
    (hai : ∀ i, i ≤ k → s.aiAt (s.build.cells + i) = true) :
    SendsAt s s.txByte .ackWait (s.build.cells + 1 + k) k := by
  have hbegin : SendsAt s s.txByte .ackWait (s.build.cells + 1) 0 := by
    refine (sendsAt_lastCycle hstarts hs hpos (noReset_mono hn (by omega))).enters hs
      (noReset_mono hn (by omega)) fun u hu => ?_
    have hone : u.ai = true := hu.ai_eq.trans (hai 0 (Nat.zero_le k))
    refine ⟨if_neg fun hf => ?_, _, goSendByte_lastCell ?_ hone⟩
    · rw [hone] at hf
      cases hf.2.2
    · rw [hu.cnt_eq, hu.build_eq]
      omega
  have hwait := hbegin.counts (m := k) hs hn (by simpa [SendBytePt.limit] using hk)
    fun _ i hi => by rw [Nat.add_assoc]; exact hai (1 + i) (by omega)
  simpa using hwait

/-- With `ai` at 0 in the `k`-th cycle of the wait the 9th pulse begins (R108). -/
theorem sendsAt_ackPulse {m : Nat} (hstarts : s.starts .sendByte) (hs : s.syncsOk)
    (hpos : 1 ≤ s.build.tUnit) (hn : s.noReset (s.build.cells + 1 + k + 1 + m))
    (hk : k < s.build.ackTimeout) (hai : ∀ i, i ≤ k → s.aiAt (s.build.cells + i) = true)
    (hack : s.aiAt (s.build.cells + 1 + k) = false) (hm : m < s.build.tUnit) :
    SendsAt s s.txByte .ackPulse (s.build.cells + 1 + k + 1 + m) m := by
  have hbegin : SendsAt s s.txByte .ackPulse (s.build.cells + 1 + k + 1) 0 := by
    refine (sendsAt_ackWait hstarts hs hpos (noReset_mono hn (by omega)) hk hai).enters hs
      (noReset_mono hn (by omega)) fun u hu => ?_
    have hzero : u.ai = false := hu.ai_eq.trans hack
    refine ⟨if_neg fun hf => ?_, _, goSendByte_acknowledged hzero⟩
    rw [hzero] at hf
    cases hf.2
  simpa using hbegin.counts (m := m) hs hn (by simpa [SendBytePt.limit] using hm) nofun

end Sending

/-! ### How a SEND_BYTE ends (R111, R121) -/

/-- A failure point sets its step code's events (R141). -/
theorem failurePoint_flag {s t : State} {code pos : Byte} (h : failurePoint s t code pos)
    {e : Event} (hall : e ∈ allFailureEvents) (he : e ∈ failureEvents code) :
    t.flag e = true := by
  rw [h.2.2.2 e hall]
  simp [he]

/-- The cycle in which a SEND_BYTE fails is its last. -/
theorem sendByte_failed {u : State} {a : SendByteAct} {code : Byte} (hr : u.now.rst = false)
    (hp : u.point = .sendByte a) (hf : a.pt.failure u = some code) :
    ∃ w, step u = .next w ∧ failurePoint u w code 0xFF ∧ w.point = .idle ∧
      w.clkOut = u.clkOut ∧ w.datOut = u.datOut ∧ w.ackOut = u.ackOut ∧
      w.cmdAct = false ∧ w.cmdResult = 0x01 ∧ w.flag .cmdDone = true := by
  have hstep := step_of_running hr (by rw [hp]; nofun)
  have hrecorded := eachFailureIsRecordedWhereItOccurs u _ hr hstep
  have hfail : u.point.failure u = some (code, 0xFF) := by
    rw [hp]
    simp only [Point.failure, hf, Option.map_some]
  rw [hfail] at hrecorded
  rw [resume_sendByte hp, goSendByte_of_failure hf] at hstep hrecorded
  obtain ⟨e0, e1, last, pos, count, hframe⟩ :=
    recordFailure_frame u.edge (some (code, BytePos.alone.code))
  refine ⟨_, hstep, hrecorded, rfl, ?_, ?_, ?_, rfl, rfl, endCommand_cmdDone _ _⟩ <;>
    simp [State.endSendByte, hframe]

/-- A SEND_BYTE that fails in its `n`-th cycle, where it drives the clock line at `clk` and still
the byte's last bit. -/
theorem sendByte_fails {s : State} {pt : SendBytePt} {n c : Nat} {code : Byte} {clk : Level}
    (hstarts : s.starts .sendByte) (hs : s.syncsOk) (hn : s.noReset (1 + n))
    (hat : SendsAt s s.txByte pt n c)
    (hf : ∀ u, InCycle s (.sendByte ⟨s.txByte, pt⟩) n c u → pt.failure u = some code)
    (hlines : ∀ u, pt.linesOk u s.txByte → u.clkOut = clk ∧ u.datOut = s.txByte.getLsbD 0) :
    ∃ t, exec .sendByte s = .next t ∧ noFailurePoint s t ∧
      (∀ k, k < n → ∃ u v, run k t = .next u ∧ step u = .next v ∧
        u.point.instr = some .sendByte ∧ u.ackOut = s.ackOut ∧
        if k + 1 = n then failurePoint u v code 0xFF else noFailurePoint u v) ∧
      ∃ u, run n t = .next u ∧ u.point = .idle ∧
        u.clkOut = clk ∧ u.datOut = s.txByte.getLsbD 0 ∧ u.ackOut = s.ackOut ∧
        u.cmdAct = false ∧ u.cmdResult = 0x01 ∧ u.flag .cmdDone = true ∧
        u.diagLast = code ∧ u.diagPos = 0xFF ∧
        ∀ e ∈ allFailureEvents, e ∈ failureEvents code → u.flag e = true := by
  rw [Nat.add_comm] at hn
  obtain ⟨u, hu, hin⟩ := hat.inCycle hs (noReset_mono hn (Nat.le_succ n))
  have hi : u.point.instr = some .sendByte := by rw [hin.point_eq]; rfl
  obtain ⟨hclk, hdat⟩ := hlines u (linesOk_of_sending (a := ⟨s.txByte, pt⟩)
    (run_linesOk (linesOk_of_idle hstarts.2.1) hu.run_eq) (by rw [hin.point_eq]; rfl))
  obtain ⟨w, hstep, hfail, hidle, hwclk, hwdat, hwack, hend⟩ :=
    sendByte_failed (now_rst_of_run hn hu.run_eq) hin.point_eq (hf u hin)
  have hstart := step_of_starts hstarts
  refine ⟨_, exec_of_starts hstarts, noFailurePoint_of_starts hstarts, fun k hk => ?_, w, ?_,
    hidle, hwclk.trans hclk, hwdat.trans hdat, hwack.trans (hu.lines.1 rfl), hend.1, hend.2.1,
    hend.2.2, hfail.1, hfail.2.1, fun e => failurePoint_flag hfail⟩
  · obtain ⟨x, y, hx, hxy, hxi, hxl, hlast, hother⟩ :=
      hu.all_cycles (P := fun x y => failurePoint x y code 0xFF) hstart hi hstep hfail k hk
    refine ⟨x, y, hx, hxy, hxi, hxl.1 rfl, ?_⟩
    split
    · exact hlast ‹_›
    · exact hother ‹_›
  · rw [← run_succ_of_step hstart, run_succ_of_run hu.run_eq, hstep]

/-- Settles O27: the failure is met in the last cycle of the last bit cell. -/
theorem sendByteMeetsPrematureAck : Obligations.SendByteMeetsPrematureAck := by
  intro s hstarts hs hpos c hn hai
  have hat := sendsAt_lastCycle hstarts hs hpos (noReset_mono hn (Nat.le_add_left _ 1))
  obtain ⟨t, hexec, hquiet, hcycles, u, hrun, hidle, hclk, hdat, hack, hact, hres, hdone, hlast,
      hdpos, hflags⟩ :=
    sendByte_fails (code := 0x30) (clk := true) hstarts hs hn hat
      (fun u hu => if_pos ⟨rfl, by rw [hu.cnt_eq, hu.build_eq]; omega, hu.ai_eq.trans hai⟩)
      fun u h => h
  exact ⟨t, hexec, hquiet, hcycles, u, hrun, hidle, hclk, hdat, hack, hact, hres, hdone, hlast,
    hdpos, hflags .txByteFail (by decide) (by decide), hflags .prematureAck (by decide) (by decide)⟩

/-- Settles O28: the failure is met in the last cycle of the wait. -/
theorem sendByteTimesOut : Obligations.SendByteTimesOut := by
  intro s hstarts hs hpos hlimit c hn hai
  obtain ⟨l, hl⟩ : ∃ l, s.build.ackTimeout = l + 1 := Nat.exists_eq_add_of_le' hlimit
  have hcycles : c + s.build.ackTimeout = c + 1 + l := by omega
  rw [Nat.add_assoc 1, hcycles] at hn
  rw [hcycles]
  have hat := sendsAt_ackWait hstarts hs hpos (noReset_mono hn (Nat.le_add_left _ 1)) (k := l)
    (by omega) fun i hi => hai i (by omega)
  have hlastAi : s.aiAt (c + 1 + l) = true := by
    rw [← hcycles]
    exact hai _ le_rfl
  obtain ⟨t, hexec, hquiet, hcycles, u, hrun, hidle, hclk, hdat, hack, hact, hres, hdone, hlast,
      hdpos, hflags⟩ :=
    sendByte_fails (code := 0x31) (clk := false) hstarts hs hn hat
      (fun u hu => if_pos ⟨by rw [hu.cnt_eq, hu.build_eq]; omega, hu.ai_eq.trans hlastAi⟩)
      fun u h => h
  exact ⟨t, hexec, hquiet, hcycles, u, hrun, hidle, hclk, hdat, hack, hact, hres, hdone, hlast,
    hdpos, hflags .txByteFail (by decide) (by decide)⟩

/-- The last cycle of the 9th pulse ends a SEND_BYTE without a failure (R111, R121). -/
theorem sendByte_succeeds {s : State} {v : Byte} {n c : Nat} (hp : s.point = .idle)
    (hs : s.syncsOk) (hn : s.noReset (n + 1)) (hat : SendsAt s v .ackPulse n c)
    (hlast : s.build.tUnit ≤ c + 1) :
    ∃ w, RunsTo .sendByte s (n + 1) w ∧ w.point = .idle ∧ w.clkOut = true ∧
      w.datOut = v.getLsbD 0 ∧ w.cmdAct = false ∧ w.cmdResult = 0x00 ∧ w.flag .cmdDone = true := by
  obtain ⟨u, hu, hin⟩ := hat.inCycle hs (noReset_mono hn (Nat.le_succ _))
  obtain ⟨hclk, hdat⟩ : SendBytePt.linesOk u v .ackPulse :=
    linesOk_of_sending (a := ⟨v, .ackPulse⟩) (run_linesOk (linesOk_of_idle hp) hu.run_eq)
      (by rw [hin.point_eq]; rfl)
  have hend := hu.next hn (by rw [hin.point_eq]; rfl) (by rw [hin.point_eq]; rfl)
  rw [resume_sendByte hin.point_eq, goSendByte_ackPulse (by rw [hin.cnt_eq, hin.build_eq]; omega)]
    at hend
  exact ⟨_, hend, rfl, (edge_clkOut u).trans hclk, (edge_datOut u).trans hdat, rfl, rfl,
    endCommand_cmdDone _ _⟩

/-- Settles O26: the 9th pulse follows the acknowledgement, and its last cycle ends the command. -/
theorem sendByteAcknowledged : Obligations.SendByteAcknowledged := by
  intro s k hstarts hs hpos hk hlimit c hn hcheck hwait hack
  obtain ⟨l, rfl⟩ : ∃ l, k = l + 1 := Nat.exists_eq_add_of_le' hk
  obtain ⟨m, hm⟩ : ∃ m, s.build.tUnit = m + 1 := Nat.exists_eq_add_of_le' hpos
  have hcycles : c + (l + 1) + s.build.tUnit = c + 1 + l + 1 + m := by omega
  have hreset : 1 + c + (l + 1) + s.build.tUnit = c + 1 + l + 1 + m + 1 := by omega
  rw [hreset] at hn
  rw [hcycles]
  have hai (i : Nat) (hi : i ≤ l) : s.aiAt (c + i) = true := by
    rcases Nat.eq_zero_or_pos i with rfl | hi0
    · exact hcheck
    · exact hwait i hi0 (by omega)
  have hat := sendsAt_ackPulse hstarts hs hpos (noReset_mono hn (Nat.le_succ _)) (k := l)
    (m := m) (by omega) hai (by rw [Nat.add_assoc, Nat.add_comm 1 l]; exact hack) (by omega)
  obtain ⟨w, hw, hidle, hclk, hdat, hact, hres, hdone⟩ :=
    sendByte_succeeds hstarts.2.1 hs hn hat (by omega)
  have hstart := step_of_starts hstarts
  refine ⟨_, exec_of_starts hstarts, noFailurePoint_of_starts hstarts, fun n hlt => ?_, w,
    (run_succ_of_step hstart).symm.trans hw.run_eq, hidle, hclk, hdat, hw.lines.1 rfl, hact, hres,
    hdone, hw.diagLast_eq, hw.diagPos_eq⟩
  obtain ⟨x, y, hx, hxy, hxi, hxl, hquiet⟩ := hw.cycles (n + 1) (by omega) (by omega)
  rw [run_succ_of_step hstart] at hx
  exact ⟨x, y, hx, hxy, hxi, hxl.1 rfl, hquiet⟩

end Sys2Proof.Proofs

/-! ## RECV_BYTE and its pseudocode (R114, R116, R117)

`Pseudocode` reads `recvByteFrom` as a sequence of waits, each at its control point; a RECV_BYTE
that is at the first of them comes to the last. -/

namespace Sys2Proof.Proofs
open Sys2Proof.Machine Sys2Proof.Laws

/-! ### The waits of the pseudocode -/

/-- A wait is satisfied in the first of its cycles in which its condition holds (R12). -/
theorem waitFrom_eq_some_iff {cond : Nat → Bool} {c n c' : Nat} :
    waitFrom cond c n = some c' ↔
      c ≤ c' ∧ c' < c + n ∧ cond c' = true ∧ ∀ k, c ≤ k → k < c' → cond k = false := by
  induction n generalizing c with
  | zero => simp only [waitFrom, reduceCtorEq, false_iff]; omega
  | succ n ih =>
    rw [waitFrom]
    split
    · rename_i hc
      rw [Option.some_inj]
      constructor
      · rintro rfl
        exact ⟨le_rfl, by omega, hc, fun k hk hlt => absurd hk (not_le.mpr hlt)⟩
      · rintro ⟨hle, -, -, hbefore⟩
        by_contra hne
        rw [hbefore c le_rfl (by omega)] at hc
        cases hc
    · rename_i hc
      rw [ih]
      constructor
      · rintro ⟨hle, hlt, hmet, hbefore⟩
        refine ⟨by omega, by omega, hmet, fun k hk hkc => ?_⟩
        rcases Nat.eq_or_lt_of_le hk with rfl | hk
        · simpa using hc
        · exact hbefore k hk hkc
      · rintro ⟨hle, hlt, hmet, hbefore⟩
        have hne : c ≠ c' := by rintro rfl; exact hc hmet
        exact ⟨by omega, by omega, hmet, fun k hk hkc => hbefore k (by omega) hkc⟩

/-- A wait times out if its condition holds in none of its cycles. -/
theorem waitFrom_eq_none_iff {cond : Nat → Bool} {c n : Nat} :
    waitFrom cond c n = none ↔ ∀ k, c ≤ k → k < c + n → cond k = false := by
  induction n generalizing c with
  | zero => simp only [waitFrom, true_iff]; omega
  | succ n ih =>
    rw [waitFrom]
    split
    · rename_i hc
      simp only [reduceCtorEq, false_iff, not_forall]
      exact ⟨c, le_rfl, by omega, by simp [hc]⟩
    · rename_i hc
      rw [ih]
      refine ⟨fun h k hk hlt => ?_, fun h k hk hlt => h k (by omega) (by omega)⟩
      rcases Nat.eq_or_lt_of_le hk with rfl | hk
      · simpa using hc
      · exact h k hk (by omega)

/-- The wait of `RecvByte` after one that was satisfied, with the data line at `di`; after the last
it returns (R114). -/
def afterWait (a : RecvByteAct) (di : Level) : Option RecvByteAct :=
  match a.pt with
  | .fall j => some ⟨a.acc, .rise j⟩
  | .rise j => some ⟨sampleBit a.acc j di, if j.val < 7 then .fall (j + 1) else .ackRequest⟩
  | .ackRequest => some ⟨a.acc, .ackRise⟩
  | .ackRise => some ⟨a.acc, .ackFall⟩
  | .ackFall => none

/-- The waits of R114's pseudocode from `a` on, begun in cycle `c`, end with `r` on the level
histories `ci` and `di`. -/
inductive Pseudocode (limit : Nat) (ci di : Nat → Level) : RecvByteAct → Nat → RecvResult → Prop
  | timeout {a c last} (h : waitFrom (fun t => a.pt.met (ci t)) c limit = none)
      (hlast : last + 1 = c + limit) : Pseudocode limit ci di a c ⟨a.acc, a.pt.code, last⟩
  | next {a a' c c' r} (h : waitFrom (fun t => a.pt.met (ci t)) c limit = some c')
      (ha : afterWait a (di c') = some a') (hr : Pseudocode limit ci di a' (c' + 1) r) :
      Pseudocode limit ci di a c r
  | done {a c c'} (h : waitFrom (fun t => a.pt.met (ci t)) c limit = some c')
      (ha : a.pt = .ackFall) : Pseudocode limit ci di a c ⟨a.acc, 0x00, c'⟩

section Pseudocode
variable {limit : Nat} (hlimit : 1 ≤ limit) {ci di : Nat → Level}
include hlimit

theorem Pseudocode.le_last {a : RecvByteAct} {c : Nat} {r : RecvResult}
    (h : Pseudocode limit ci di a c r) : c ≤ r.last := by
  induction h with
  | timeout h hlast => simp only; omega
  | next h ha hr ih => have := (waitFrom_some h).1; omega
  | done h ha => exact (waitFrom_some h).1

theorem pseudocode_recvTail (acc : Byte) (c : Nat) :
    Pseudocode limit ci di ⟨acc, .ackRequest⟩ c (recvTail limit ci acc c) := by
  unfold recvTail
  cases h1 : waitFrom (fun t => !ci t) c limit with
  | none => exact .timeout (a := ⟨acc, .ackRequest⟩) h1 (by omega)
  | some c1 =>
    dsimp only
    refine .next h1 rfl ?_
    cases h2 : waitFrom ci (c1 + 1) limit with
    | none => exact .timeout (a := ⟨acc, .ackRise⟩) h2 (by omega)
    | some c2 =>
      dsimp only
      refine .next h2 rfl ?_
      cases h3 : waitFrom (fun t => !ci t) (c2 + 1) limit with
      | none => exact .timeout (a := ⟨acc, .ackFall⟩) h3 (by omega)
      | some c3 => exact .done (a := ⟨acc, .ackFall⟩) h3 rfl

/-- `recvFrom` with `m` bits to come goes through the waits of `RecvByte`. -/
theorem pseudocode_recvFrom {m : Nat} (hm : m ≤ 8) (acc : Byte) (c : Nat) :
    Pseudocode limit ci di ⟨acc, bitsToCome m⟩ c (recvFrom limit ci di acc c m) := by
  induction m generalizing acc c with
  | zero => exact pseudocode_recvTail hlimit acc c
  | succ m ih =>
    have hj : (Fin.ofNat 8 (7 - m)).val = 7 - m := Nat.mod_eq_of_lt (by omega)
    rw [recvFrom, ← hj]
    cases h1 : waitFrom (fun t => !ci t) c limit with
    | none => exact .timeout (a := ⟨acc, .fall (Fin.ofNat 8 (7 - m))⟩) h1 (by omega)
    | some c1 =>
      dsimp only
      refine .next h1 rfl ?_
      cases h2 : waitFrom ci (c1 + 1) limit with
      | none => exact .timeout (a := ⟨acc, .rise (Fin.ofNat 8 (7 - m))⟩) h2 (by omega)
      | some c2 =>
        dsimp only
        refine .next h2 ?_ (ih (by omega) _ (c2 + 1))
        rw [← sampleBit_eq hm, ← bitsToCome_after hm]
        rfl

end Pseudocode

/-! ### RECV_BYTE goes through the waits -/

section Receiving
variable {s : State} {a a' : RecvByteAct} {n c : Nat}

/-- In its `n`-th cycle the RECV_BYTE is at the wait `a`, with the counter at `c`. -/
abbrev ReceivesAt (s : State) (a : RecvByteAct) (n c : Nat) : Prop :=
  RunsAt .recvByte s (.recvByte a) n c

theorem resume_recvByte {t : State} (h : t.point = .recvByte a) (w : State) :
    t.resume w = t.goRecvByte w a .alone .recvByte State.endRecvByte := by
  simp only [State.resume, h]

/-- Without a timeout no failure is met (R142). -/
theorem recvByte_point_failure {t : State}
    (h : ¬(t.build.edgeTimeout ≤ t.cnt + 1 ∧ a.pt.met t.ci = false)) :
    Point.failure t (.recvByte a) = none := by
  simp only [Point.failure, recvByte_failure_eq, if_neg h, Option.map_none]

/-- A wait whose condition does not hold counts up to its last cycle. -/
theorem ReceivesAt.counts {m : Nat} (h : ReceivesAt s a n c) (hs : s.syncsOk)
    (hn : s.noReset (n + m)) (hlt : c + m < s.build.edgeTimeout)
    (hunmet : ∀ k, k < m → a.pt.met (s.ciAt (n + k)) = false) :
    ReceivesAt s a (n + m) (c + m) := by
  refine RunsAt.counts h hs hn rfl fun k u hk hu => ?_
  have hcnt : u.cnt + 1 < u.build.edgeTimeout := by rw [hu.cnt_eq, hu.build_eq]; omega
  refine ⟨recvByte_point_failure fun hf => absurd hf.1 (not_le.mpr hcnt), ?_⟩
  rw [resume_recvByte hu.point_eq, State.goRecvByte, State.wait, hu.ci_eq, hunmet k hk,
    if_neg (by simp), if_pos hcnt]

/-- The cycle in which a wait is satisfied: the next one begins. -/
theorem ReceivesAt.next (h : ReceivesAt s a n c) (hs : s.syncsOk) (hn : s.noReset (n + 1))
    (hmet : a.pt.met (s.ciAt n) = true) (ha : afterWait a (s.diAt n) = some a') :
    ReceivesAt s a' (n + 1) 0 := by
  refine RunsAt.next h hs hn rfl fun u hu => ?_
  rw [← hu.ci_eq] at hmet
  refine ⟨recvByte_point_failure (by simp [hmet]), ?_⟩
  rw [resume_recvByte hu.point_eq, State.goRecvByte, wait_of_met _ _ _ _ hmet]
  rw [← hu.di_eq] at ha
  obtain ⟨acc, pt⟩ := a
  cases pt <;> cases ha <;> exact ⟨rfl, rfl⟩

/-- A wait begun in cycle `n` is still on in the cycle in which it is satisfied. -/
theorem ReceivesAt.satisfied {n' : Nat} (h : ReceivesAt s a n 0) (hs : s.syncsOk)
    (hn : s.noReset n')
    (hw : waitFrom (fun t => a.pt.met (s.ciAt t)) n s.build.edgeTimeout = some n') :
    ReceivesAt s a n' (n' - n) ∧ a.pt.met (s.ciAt n') = true := by
  obtain ⟨hle, hlt, hmet, hbefore⟩ := waitFrom_eq_some_iff.mp hw
  obtain ⟨m, rfl⟩ := Nat.exists_eq_add_of_le hle
  have hat := h.counts hs hn (by omega) fun k hk => hbefore (n + k) (by omega) (by omega)
  exact ⟨by simpa using hat, hmet⟩

/-- The last cycle of a RECV_BYTE: `u` is at the wait that times out with the step code of `r`, or
at the last wait, which is satisfied. -/
def endsWith (r : RecvResult) (q : RecvBytePt) (u : State) : Prop :=
  (r.code = 0x00 ∧ q = .ackFall ∧ u.ci = false) ∨
    (r.code = q.code ∧ u.build.edgeTimeout ≤ u.cnt + 1 ∧ q.met u.ci = false)

/-- A RECV_BYTE that is at the first of the waits of the pseudocode comes to its end. -/
theorem ReceivesAt.ends {r : RecvResult} (hs : s.syncsOk) (hlimit : 1 ≤ s.build.edgeTimeout)
    (hp : Pseudocode s.build.edgeTimeout s.ciAt s.diAt a n r) (h : ReceivesAt s a n 0)
    (hn : s.noReset r.last) :
    ∃ q u, RunsTo .recvByte s r.last u ∧ u.point = .recvByte ⟨r.acc, q⟩ ∧ endsWith r q u := by
  induction hp with
  | @timeout a n last hw hlast =>
    rw [waitFrom_eq_none_iff] at hw
    obtain ⟨m, rfl⟩ : ∃ m, last = n + m := Nat.exists_eq_add_of_le (by omega)
    have hat := h.counts hs hn (by omega) fun k hk => hw (n + k) (by omega) (by omega)
    obtain ⟨u, hu, hin⟩ := RunsAt.inCycle hat hs hn
    refine ⟨a.pt, u, hu, hin.point_eq, .inr ⟨rfl, ?_, ?_⟩⟩
    · rw [hin.cnt_eq, hin.build_eq]; omega
    · rw [hin.ci_eq]; exact hw (n + m) (by omega) (by omega)
  | next hw ha hr ih =>
    have hle := hr.le_last hlimit
    obtain ⟨hat, hmet⟩ := h.satisfied hs (noReset_mono hn (by omega)) hw
    exact ih (hat.next hs (noReset_mono hn hle) hmet ha) hn
  | @done a n n' hw ha =>
    obtain ⟨hat, hmet⟩ := h.satisfied hs hn hw
    obtain ⟨u, hu, hin⟩ := RunsAt.inCycle hat hs hn
    obtain ⟨acc, pt⟩ := a
    cases ha
    refine ⟨.ackFall, u, hu, hin.point_eq, .inl ⟨rfl, rfl, ?_⟩⟩
    rw [hin.ci_eq]
    simpa [RecvBytePt.met] using hmet

theorem receivesAt_of_starts (hstarts : s.starts .recvByte) :
    ReceivesAt s ⟨0, bitsToCome 8⟩ 1 0 :=
  ⟨_, runsTo_of_starts hstarts, rfl, rfl⟩

end Receiving

/-! ### How a RECV_BYTE ends (R117, R122) -/

theorem recvByte_code_ne_zero (q : RecvBytePt) : q.code ≠ 0x00 := by
  intro h
  have hrange := (recvByte_code_range q).1
  rw [h] at hrange
  revert hrange
  decide

/-- ACK_OUT is low at the waits with the step codes 0x21 and 0x22 (R114, R117). -/
theorem ackOut_of_linesOk {u : State} {q : RecvBytePt} (h : q.linesOk u) :
    u.ackOut = decide (q.code ≠ 0x21 ∧ q.code ≠ 0x22) := by
  cases q with
  | fall j | rise j => refine Eq.trans h ?_; fin_cases j <;> rfl
  | _ => exact h

/-- Every step code of `RecvByte` sets RX_TIMEOUT (R141). -/
theorem rxTimeout_mem_failureEvents (q : RecvBytePt) : .rxTimeout ∈ failureEvents q.code := by
  have hrange := recvByte_code_range q
  have hack : q.code ≠ 0x30 := by rintro h; rw [h] at hrange; revert hrange; decide
  have hwait : q.code ≠ 0x31 := by rintro h; rw [h] at hrange; revert hrange; decide
  rw [failureEvents, if_neg hack, if_neg hwait, if_pos hrange]
  exact List.mem_singleton_self _

/-- The levels of the running RECV_BYTE (R82). -/
theorem linesOk_of_recvByte {u : State} {a : RecvByteAct} (hu : u.linesOk)
    (hp : u.point = .recvByte a) : a.pt.linesOk u := by
  rw [State.linesOk, hp] at hu
  exact hu

/-- The last cycle of a RECV_BYTE, complete or with a timeout. -/
theorem recvByte_returns {u : State} {r : RecvResult} {q : RecvBytePt} (hr : u.now.rst = false)
    (hp : u.point = .recvByte ⟨r.acc, q⟩) (hlines : u.linesOk) (hend : endsWith r q u) :
    ∃ w, step u = .next w ∧
      (if r.code = 0x00 then noFailurePoint u w else failurePoint u w r.code 0xFF) ∧
      w.point = .idle ∧ w.rxByte = r.acc ∧ w.cmdAct = false ∧
      w.cmdResult = (if r.code = 0x00 then 0x00 else 0x01) ∧ w.flag .cmdDone = true ∧
      w.clkOut = u.clkOut ∧ w.datOut = u.datOut ∧
      w.ackOut = decide (r.code ≠ 0x21 ∧ r.code ≠ 0x22) ∧
      (r.code ≠ 0x00 → w.flag .rxTimeout = true) := by
  have hstep := step_of_running hr (by rw [hp]; nofun)
  have hrecorded := eachFailureIsRecordedWhereItOccurs u _ hr hstep
  have hlevel := ackOut_of_linesOk (linesOk_of_recvByte hlines hp)
  rcases hend with ⟨hcode, rfl, hci⟩ | ⟨hcode, hcnt, hunmet⟩
  · have hnone : u.point.failure u = none := by
      rw [hp]
      exact recvByte_point_failure (by simp [RecvBytePt.met, hci])
    rw [hnone] at hrecorded
    rw [resume_recvByte hp, State.goRecvByte,
      wait_of_met _ _ _ _ (by simp [RecvBytePt.met, hci])] at hstep hrecorded
    simp only [hcode, if_true]
    exact ⟨_, hstep, hrecorded, rfl, rfl, rfl, rfl, endCommand_cmdDone _ _, edge_clkOut u,
      edge_datOut u, rfl, fun h => absurd rfl h⟩
  · have hne : r.code ≠ 0x00 := hcode ▸ recvByte_code_ne_zero q
    have hfail : u.point.failure u = some (r.code, 0xFF) := by
      rw [hp]
      simp only [Point.failure, recvByte_failure_eq, if_pos (And.intro hcnt hunmet), hcode,
        Option.map_some]
    rw [hfail] at hrecorded
    rw [resume_recvByte hp, State.goRecvByte, State.wait, if_neg (by simp [hunmet]),
      if_neg (not_lt.mpr hcnt)] at hstep hrecorded
    simp only [if_neg hne]
    refine ⟨_, hstep, hrecorded, rfl, rfl, rfl, rfl, endCommand_cmdDone _ _, ?_, ?_, ?_,
      fun _ => failurePoint_flag hrecorded (by decide)
        (hcode ▸ rxTimeout_mem_failureEvents q)⟩
    · simp [State.endRecvByte]
    · simp [State.endRecvByte]
    · simpa [State.endRecvByte, hcode] using hlevel

/-- Settles O29: the RECV_BYTE goes through the waits of its pseudocode, and its last cycle returns
what they give. -/
theorem recvByteFollowsItsPseudocode : Obligations.RecvByteFollowsItsPseudocode := by
  intro s hstarts hs hlimit r hn
  rw [Nat.add_comm] at hn
  have hpseudo : Pseudocode s.build.edgeTimeout s.ciAt s.diAt ⟨0, bitsToCome 8⟩ 1 r :=
    pseudocode_recvFrom hlimit le_rfl 0 1
  obtain ⟨q, u, hu, hp, hend⟩ := (receivesAt_of_starts hstarts).ends hs hlimit hpseudo
    (noReset_mono hn (Nat.le_succ _))
  have hi : u.point.instr = some .recvByte := by rw [hp]; rfl
  obtain ⟨w, hstep, hrecorded, hidle, hbyte, hact, hres, hdone, hclk, hdat, hack, hflag⟩ :=
    recvByte_returns (now_rst_of_run hn hu.run_eq) hp
      (run_linesOk (linesOk_of_idle hstarts.2.1) hu.run_eq) hend
  have hstart := step_of_starts hstarts
  refine ⟨_, exec_of_starts hstarts, noFailurePoint_of_starts hstarts, fun k hk => ?_, w, ?_,
    hidle, hbyte, hact, hres, hdone, hclk.trans (hu.lines.2 rfl).1, hdat.trans (hu.lines.2 rfl).2,
    hack, fun hcode => ?_, fun hcode => ?_⟩
  · obtain ⟨x, y, hx, hxy, hxi, hxl, hlast, hother⟩ := hu.all_cycles
      (P := fun x y => if r.code = 0x00 then noFailurePoint x y else failurePoint x y r.code 0xFF)
      hstart hi hstep hrecorded k hk
    refine ⟨x, y, hx, hxy, hxi, (hxl.2 rfl).1, (hxl.2 rfl).2, ?_⟩
    by_cases hk' : k + 1 = r.last
    · by_cases hcode : r.code = 0x00
      · simpa [hcode] using hlast hk'
      · simpa [hk', hcode] using hlast hk'
    · simpa [hk'] using hother hk'
  · rw [← run_succ_of_step hstart, run_succ_of_run hu.run_eq, hstep]
  · rw [if_pos hcode] at hrecorded
    exact ⟨hrecorded.1.trans hu.diagLast_eq, hrecorded.2.1.trans hu.diagPos_eq⟩
  · rw [if_neg hcode] at hrecorded
    exact ⟨hrecorded.1, hrecorded.2.1, hflag hcode⟩

end Sys2Proof.Proofs

/-! ## Two adjacent nodes (R119, R161, R177)

The two nodes run alone, each on pins that are given in advance: the sender's acknowledgement falls
in a fixed cycle, and the receiver's lines are the sender's. Both drive what the other is given, and
so their runs are the run of the ring. -/

namespace Sys2Proof.Proofs
open Sys2Proof.Machine Sys2Proof.Laws

/-! ### A node on given pins -/

/-- A cycle without reset and without a host access, with the three pins at these levels. -/
def pins (clk dat ack : Level) : Input :=
  { Input.undriven with clkIn := clk, datIn := dat, ackIn := ack }

/-- The inputs `f` of `n` cycles. -/
def drivenBy (n : Nat) (f : Nat → Input) : List Input := (List.range n).map f

/-- No cycle of a node has a reset or a host access. -/
def leftAlone (s : State) : Prop := ∀ x ∈ s.inputs, x.rst = false ∧ x.hSel = false

theorem leftAlone.noReset {s : State} (h : leftAlone s) (n : Nat) : s.noReset n :=
  fun x hx => (h x (List.mem_of_mem_take hx)).1

/-- The inputs of the cycle that a run has come to. -/
theorem now_of_run {n : Nat} {s u : State} (hn : s.noReset n) (h : run n s = .next u) :
    u.now = s.inputs.getD n Input.undriven := by
  rw [State.now, (run_environment hn h).2, List.headD_eq_head?_getD, List.head?_drop,
    List.getD_eq_getElem?_getD]

theorem leftAlone.now_of_run {n : Nat} {s u : State} (h : leftAlone s) (hrun : run n s = .next u) :
    u.now.rst = false ∧ u.now.hSel = false := by
  rw [Proofs.now_of_run (h.noReset n) hrun, List.getD_eq_getElem?_getD]
  cases hx : s.inputs[n]? with
  | none => exact ⟨rfl, rfl⟩
  | some x => exact h x (List.mem_of_getElem? hx)

/-- Without a host access the clock edge is that of the block alone. -/
theorem edge_of_no_access {s : State} (h : s.now.hSel = false) : s.edge = clocked s s := by
  rw [edge_eq, hostAccess_of_no_write s (by rw [h]; rfl)]

/-- A node that is left alone keeps its pending latch empty and its DIAG_COUNT while no failure is
recorded (R49, R96). -/
theorem RunsTo.unattended {i : Instr} {s u : State} {n : Nat} (h : RunsTo i s n u)
    (hstarts : s.starts i) (hi : i ≠ .msgReceive) (hs : leftAlone s) :
    ∀ k, 1 ≤ k → k ≤ n → ∀ w, run k s = .next w →
      w.pendValid = false ∧ w.diagCount = s.diagCount := by
  have step_unattended {x y : State} {k : Nat} (hx : run k s = .next x) (hxy : step x = .next y)
      (hf : x.fetch = some (.instr i)) (hpend : x.point ≠ .idle → x.pendValid = false)
      (hquiet : noFailurePoint x y) : y.pendValid = false ∧ y.diagCount = x.diagCount := by
    obtain ⟨hr, hsel⟩ := hs.now_of_run hx
    rw [step_of_fetch hr hf] at hxy
    obtain ⟨-, -, hvalid⟩ := exec_commandRegisters hf hxy hi
    refine ⟨hvalid.trans ?_, hquiet.2.2.1.trans (if_neg fun hw => ?_)⟩
    · split
      · rfl
      · rename_i hne
        rw [edge_of_no_access hsel]
        exact hpend hne
    · rw [hsel] at hw
      cases hw.1
  intro k h1 hk
  induction k, h1 using Nat.le_induction with
  | base =>
    intro w hw
    obtain rfl : startOf i s s.edge = w := by
      have hrun := (runsTo_of_starts hstarts).run_eq.symm.trans hw
      injection hrun
    exact step_unattended (k := 0) rfl (step_of_starts hstarts)
      ((fetch_of_idle hstarts.2.1).trans hstarts.2.2) (fun hne => absurd hstarts.2.1 hne)
      (noFailurePoint_of_starts hstarts)
  | succ k h1 ih =>
    intro w hw
    obtain ⟨x, y, hx, hxy, hxi, -, hquiet⟩ := h.cycles k h1 (by omega)
    obtain rfl : y = w := by
      have hrun := hxy.symm.trans ((run_succ_of_run hx).symm.trans hw)
      injection hrun
    obtain ⟨hpend, hcount⟩ := ih (by omega) x hx
    obtain ⟨hpend', hcount'⟩ := step_unattended hx hxy (fetch_of_instr hxi) (fun _ => hpend) hquiet
    exact ⟨hpend', hcount'.trans hcount⟩

/-- `x` is `w` but for what the clock edge writes and the inputs. -/
def sameRegisters (w x : State) : Prop :=
  x = { w with
    clkSync := x.clkSync, datSync := x.datSync, ackSync := x.ackSync, diPrev := x.diPrev,
    inputs := x.inputs }

/-- A node at `IDLE_POLL` that is left alone, with no command pending and no start condition on its
lines, stays as it is (R89, R90). -/
theorem idle_run {n : Nat} {s w : State} (h : run n s = .next w) (hp : w.point = .idle)
    (hpend : w.pendValid = false) (hs : s.syncsOk) (hleft : leftAlone s)
    (hdi : ∀ t, s.diAt t = true) (m : Nat) :
    ∃ x, run (n + m) s = .next x ∧ sameRegisters w x := by
  induction m with
  | zero => exact ⟨w, h, rfl⟩
  | succ m ih =>
    obtain ⟨x, hx, hsame⟩ := ih
    obtain ⟨hr, hsel⟩ := hleft.now_of_run hx
    have hx_point : x.point = .idle := by rw [hsame]; exact hp
    have hx_pend : x.pendValid = false := by rw [hsame]; exact hpend
    have hx_di : x.di = true :=
      (synchroniserDelay _ s x hs (hleft.noReset _) hx).2.1.trans (hdi _)
    have hpoll : x.poll = none := by simp [State.poll, State.startDet, hx_di, hx_pend]
    refine ⟨x.edge, ?_, ?_⟩
    · rw [← Nat.add_assoc, run_succ_of_run hx, step_of_no_poll hr hx_point hpoll]
    · rw [edge_of_no_access hsel, sameRegisters, clocked]
      rw [sameRegisters] at hsame
      rw [hsame]

/-! ### What the synchronisers of such a node show -/

section Shown
variable {d n : Nat} {f : Nat → Input}

/-- Before `SYNC_STAGES` cycles have passed a synchroniser shows its reset value (R22, R53). -/
theorem shownAt_reset (l : List Level) {t : Nat} (h : t < d) :
    shownAt (List.replicate d true) l t = true := by
  rw [shownAt, List.reverse_replicate, List.getD_append _ _ _ _ (by simpa using h),
    List.getD_eq_getElem?_getD, List.getElem?_replicate_of_lt h]
  rfl

/-- After them it shows the pin of `SYNC_STAGES` cycles ago (R22). -/
theorem shownAt_delayed (g : Input → Level) {t : Nat} (h : t < n) :
    shownAt (List.replicate d true) ((drivenBy n f).map g) (t + d) = g (f t) := by
  rw [shownAt, List.reverse_replicate, List.getD_append_right _ _ _ _ (by simp)]
  simp [drivenBy, h]

/-- A pin that is always at 1 is shown at 1. -/
theorem shownAt_ones {l : List Level} (hl : ∀ x ∈ l, x = true) (t : Nat) :
    shownAt (List.replicate d true) l t = true := by
  rw [shownAt, List.getD_eq_getElem?_getD]
  cases hx : ((List.replicate d true).reverse ++ l)[t]? with
  | none => rfl
  | some x =>
    rcases List.mem_append.mp (List.mem_of_getElem? hx) with hx | hx
    · rw [List.reverse_replicate] at hx
      exact List.eq_of_mem_replicate hx
    · exact hl x hx

end Shown

end Sys2Proof.Proofs

/-! ### Two runs that feed each other are the run of the ring (R161) -/

namespace Sys2Proof.Proofs
open Sys2Proof.Machine Sys2Proof.Laws

/-- The state after `n` cycles, of a run that comes so far. -/
def after (n : Nat) (s : State) : State :=
  match run n s with
  | .next u => u
  | .fault _ => s
  | .refused _ => s

theorem after_of_run {n : Nat} {s u : State} (h : run n s = .next u) : after n s = u := by
  rw [after, h]

/-- A node as it stands in a ring, which drives its inputs cycle by cycle. -/
def unplugged (s : State) : State := { s with inputs := [] }

/-- A node in a ring in a cycle whose inputs are those of `s`. -/
def plugged (s : State) : State := { s with inputs := [s.now] }

/-- At this control point the node is at `IDLE_POLL` or runs a byte command. -/
def idleOrByte (p : Point) : Prop :=
  p = .idle ∨ (∃ a, p = .sendByte a) ∨ ∃ a, p = .recvByte a

/-- The segment of such a cycle passes the inputs through. -/
theorem segment_inputs {s : State} {g : State → State} (hg : segment s = some g)
    (hp : idleOrByte s.point) (w : State) (xs : List Input) :
    g { w with inputs := xs } = { g w with inputs := xs } := by
  rcases hp with hp | ⟨⟨v, pt⟩, hp⟩ | ⟨⟨acc, pt⟩, hp⟩
  · unfold segment at hg
    rw [hp] at hg
    cases hpoll : s.poll with
    | none => rw [hpoll] at hg; cases hg; rfl
    | some d =>
      rw [hpoll] at hg
      cases d with
      | rejected e => cases hg
      | instr i => cases hg; cases i <;> rfl
  · rw [segment_of_running (by rw [hp]; nofun)] at hg
    cases hg
    simp only [resume_sendByte hp]
    cases pt with
    | clockLow j | dataLow j | ackPulse =>
      simp only [State.goSendByte, State.delay]
      split <;> rfl
    | clockHigh j =>
      simp only [State.goSendByte, State.delay, State.afterCell]
      split_ifs <;> rfl
    | ackWait =>
      simp only [State.goSendByte, State.wait]
      split_ifs <;> rfl
  · rw [segment_of_running (by rw [hp]; nofun)] at hg
    cases hg
    simp only [resume_recvByte hp, State.goRecvByte, State.wait, if_true, Bool.false_eq_true,
      if_false]
    split_ifs
    · cases pt <;> rfl
    · rfl
    · simp only [State.raiseFailure, raiseFailureEvents_of_timeout (recvByte_code_range pt)]
      rfl

/-- A node in a ring does in a cycle what it does on a list of inputs that has the same ones now. -/
theorem step_plugged {s t : State} (hr : s.now.rst = false) (hsel : s.now.hSel = false)
    (hp : idleOrByte s.point) (h : step s = .next t) : step (plugged s) = .next (unplugged t) := by
  obtain ⟨g, hg, rfl⟩ := (step_next_iff hr).mp h
  have hseg : segment (plugged s) = some g :=
    (segment_unseen s [s.now] s.event0 s.event1 s.diagCount).trans hg
  have hedge : (plugged s).edge = unplugged (clocked s s) :=
    edge_of_no_access (s := plugged s) hsel
  refine (step_next_iff (s := plugged s) hr).mpr ⟨g, hseg, ?_⟩
  rw [hedge, edge_of_no_access hsel]
  exact (segment_inputs hg hp (clocked s s) []).symm

/-- One cycle of a chain of two nodes: each sees the other's outputs (R160, R161). -/
theorem chain_step {a b a' b' : State}
    (ha : step (a.withPins true true b.ackOut) = .next a')
    (hb : step (b.withPins a.clkOut a.datOut true) = .next b') :
    (Ring.chain [a, b]).step = .next (Ring.chain [a', b']) := by
  have hnodes : stepAll ((Ring.chain [a, b]).nodes.mapIdx (Ring.chain [a, b]).wired) =
      .next [a', b'] := by
    have hwired : (Ring.chain [a, b]).nodes.mapIdx (Ring.chain [a, b]).wired =
      [a.withPins true true b.ackOut, b.withPins a.clkOut a.datOut true] := rfl
    simp [hwired, stepAll, ha, hb]
  rw [Ring.step, hnodes]
  rfl

theorem ring_run_succ {n : Nat} {r r' : Ring} (h : Ring.run n r = .next r') :
    Ring.run (n + 1) r = r'.step := by
  induction n generalizing r with
  | zero =>
    cases h
    rw [Ring.run]
    cases hstep : r'.step <;> rfl
  | succ n ih =>
    rw [Ring.run] at h ⊢
    cases hstep : r.step with
    | next r₁ => simp only [hstep] at h ⊢; exact ih h
    | fault f => simp [hstep] at h
    | refused e => simp [hstep] at h

/-- In each of its first `n` cycles the run from `s` is at `IDLE_POLL` or in a byte command, on the
pins `f`. -/
def runsOn (s : State) (n : Nat) (f : Nat → Input) : Prop :=
  ∀ k, k < n → ∃ u v, run k s = .next u ∧ step u = .next v ∧ idleOrByte u.point ∧ u.now = f k

/-- The runs of two nodes of which each is on pins that the other drives. -/
theorem ring_run_of_runsOn {a b : State} {n : Nat}
    (ha : runsOn a n fun k => pins true true (after k b).ackOut)
    (hb : runsOn b n fun k => pins (after k a).clkOut (after k a).datOut true) :
    Ring.run n (Ring.chain [unplugged a, unplugged b]) =
      .next (Ring.chain [unplugged (after n a), unplugged (after n b)]) := by
  induction n with
  | zero => rfl
  | succ n ih =>
    have hrun := ih (fun k hk => ha k (by omega)) (fun k hk => hb k (by omega))
    obtain ⟨u, u', hu, hstep, hp, hnow⟩ := ha n (Nat.lt_succ_self n)
    obtain ⟨w, w', hw, hstep', hp', hnow'⟩ := hb n (Nat.lt_succ_self n)
    rw [ring_run_succ hrun]
    simp only [after_of_run hu, after_of_run hw] at hnow hnow' ⊢
    rw [after_of_run ((run_succ_of_run hu).trans hstep),
      after_of_run ((run_succ_of_run hw).trans hstep')]
    apply chain_step
    · have hplugged : (unplugged u).withPins true true (unplugged w).ackOut = plugged u := by
        rw [plugged, hnow]; rfl
      rw [hplugged]
      exact step_plugged (by rw [hnow]; rfl) (by rw [hnow]; rfl) hp hstep
    · have hplugged : (unplugged w).withPins (unplugged u).clkOut (unplugged u).datOut true =
          plugged w := by rw [plugged, hnow']; rfl
      rw [hplugged]
      exact step_plugged (by rw [hnow']; rfl) (by rw [hnow']; rfl) hp' hstep'

end Sys2Proof.Proofs

/-! ### The sender on the receiver's acknowledgement (R108, R111) -/

namespace Sys2Proof.Proofs
open Sys2Proof.Machine Sys2Proof.Laws

/-- A node after reset with SEND_BYTE of `v` pending. -/
def sender (b : Build) (v : Byte) (xs : List Input) : State :=
  { State.resetOf b xs with txByte := v, pendValid := true, pendOp := 4 }

/-- From this cycle on the receiver acknowledges: it has seen the clock fall after the eighth bit
cell. -/
def ackFallsAt (b : Build) : Nat := b.cells + b.syncStages + 2

/-- The sender for `n` cycles on the acknowledgement of the receiver. -/
def senderOn (b : Build) (v : Byte) (n : Nat) : State :=
  sender b v (drivenBy n fun k => pins true true (decide (k < ackFallsAt b)))

theorem leftAlone_of_pins {s : State} {n : Nat} {clk dat ack : Nat → Level}
    (h : s.inputs = drivenBy n fun k => pins (clk k) (dat k) (ack k)) : leftAlone s := by
  intro x hx
  rw [h, drivenBy, List.mem_map] at hx
  obtain ⟨k, -, rfl⟩ := hx
  exact ⟨rfl, rfl⟩

/-- The inputs of a cycle of a run on given pins. -/
theorem now_of_pins {s u : State} {n k : Nat} {f : Nat → Input} (hleft : leftAlone s)
    (h : s.inputs = drivenBy n f) (hk : k < n) (hrun : run k s = .next u) : u.now = f k := by
  rw [now_of_run (hleft.noReset k) hrun, h]
  simp [drivenBy, hk]

/-- With the data line high the poll finds the pending command (R90). -/
theorem poll_of_pending {s : State} (hdi : s.di = true) (hpend : s.pendValid = true) :
    s.poll = some (decodeCmd (0#4 ++ s.pendOp)) := by
  rw [poll_of_no_start (by simp [State.startDet, hdi]), if_pos hpend]

theorem sender_starts {b : Build} {v : Byte} {xs : List Input}
    (hr : (sender b v xs).now.rst = false) : (sender b v xs).starts .sendByte := by
  have hword : decodeCmd (0#4 ++ 4#4) = .instr .sendByte := by decide
  have hdi : (sender b v xs).di = true := getLastD_replicate_true b.syncStages
  exact ⟨hr, rfl, (poll_of_pending hdi rfl).trans (congrArg some hword)⟩

theorem sender_syncsOk {b : Build} {v : Byte} {xs : List Input} (h : 1 ≤ b.syncStages) :
    (sender b v xs).syncsOk := by
  simp [State.syncsOk, sender, State.resetOf, h]

section Sender
variable {b : Build} {v : Byte} {n : Nat}

theorem senderOn_leftAlone : leftAlone (senderOn b v n) :=
  leftAlone_of_pins (clk := fun _ => true) (dat := fun _ => true) rfl

theorem senderOn_starts : (senderOn b v n).starts .sendByte :=
  sender_starts (senderOn_leftAlone.now_of_run (n := 0) rfl).1

/-- The acknowledgement comes to the sender `SYNC_STAGES` cycles after the receiver's (R22). -/
theorem senderOn_aiAt {t : Nat} (ht : t < n) :
    (senderOn b v n).aiAt t = decide (t < ackFallsAt b + b.syncStages) := by
  rcases lt_or_ge t b.syncStages with hlt | hge
  · rw [decide_eq_true (by omega)]
    exact shownAt_reset _ hlt
  · obtain ⟨k, rfl⟩ := Nat.exists_eq_add_of_le' hge
    refine (shownAt_delayed (·.ackIn) (by omega)).trans ?_
    simp only [pins, decide_eq_decide]
    omega

theorem senderOn_diAt (t : Nat) : (senderOn b v n).diAt t = true := by
  refine shownAt_ones (fun x hx => ?_) t
  obtain ⟨y, hy, rfl⟩ := List.mem_map.mp hx
  obtain ⟨k, -, rfl⟩ := List.mem_map.mp hy
  rfl

variable (hunit : 1 ≤ b.tUnit) (hsync : 1 ≤ b.syncStages)
  (hlimit : 2 * b.syncStages + 2 ≤ b.ackTimeout)
  (hn : b.cells + 2 * b.syncStages + 3 + b.tUnit ≤ n)
include hunit hsync hlimit hn

/-- The sender waits until the acknowledgement has come to it. -/
theorem senderOn_waits {k : Nat} (hk : k < 2 * b.syncStages + 2) :
    SendsAt (senderOn b v n) v .ackWait (b.cells + 1 + k) k :=
  sendsAt_ackWait (s := senderOn b v n) senderOn_starts (sender_syncsOk hsync) hunit
    (senderOn_leftAlone.noReset _) (show k < b.ackTimeout by omega) fun i hi => by
      show (senderOn b v n).aiAt (b.cells + i) = true
      rw [senderOn_aiAt (by omega), ackFallsAt]
      exact decide_eq_true (by omega)

theorem senderOn_pulses {k : Nat} (hk : k < b.tUnit) :
    SendsAt (senderOn b v n) v .ackPulse (b.cells + 2 * b.syncStages + 3 + k) k := by
  have hpulse := sendsAt_ackPulse (s := senderOn b v n) (k := 2 * b.syncStages + 1) (m := k)
    senderOn_starts (sender_syncsOk hsync) hunit (senderOn_leftAlone.noReset _)
    (show 2 * b.syncStages + 1 < b.ackTimeout by omega)
    (fun i hi => by
      show (senderOn b v n).aiAt (b.cells + i) = true
      rw [senderOn_aiAt (by omega), ackFallsAt]
      exact decide_eq_true (by omega))
    (by
      show (senderOn b v n).aiAt (b.cells + 1 + (2 * b.syncStages + 1)) = false
      rw [senderOn_aiAt (by omega), ackFallsAt]
      exact decide_eq_false (by omega))
    hk
  have hcycles : b.cells + 1 + (2 * b.syncStages + 1) + 1 + k =
      b.cells + 2 * b.syncStages + 3 + k := by omega
  rw [← hcycles]
  exact hpulse

/-- The SEND_BYTE ends with success, the clock line high, and the sender stays so. -/
theorem senderOn_ends : ∃ w,
    RunsTo .sendByte (senderOn b v n) (b.cells + 2 * b.syncStages + 3 + b.tUnit) w ∧
      w.point = .idle ∧ w.clkOut = true ∧ w.cmdResult = 0x00 ∧ w.flag .cmdDone = true ∧
      w.diagLast = 0x00 ∧ w.diagCount = 0 ∧
      ∀ m, ∃ x, run (b.cells + 2 * b.syncStages + 3 + b.tUnit + m) (senderOn b v n) = .next x ∧
        sameRegisters w x := by
  obtain ⟨t, ht⟩ : ∃ t, b.tUnit = t + 1 := Nat.exists_eq_add_of_le' hunit
  obtain ⟨w, hw, hidle, hclk, -, -, hres, hdone⟩ := sendByte_succeeds (s := senderOn b v n) rfl
    (sender_syncsOk hsync) (senderOn_leftAlone.noReset _)
    (senderOn_pulses hunit hsync hlimit hn (k := t) (by omega))
    (show b.tUnit ≤ t + 1 from ht.le)
  have hcycles : b.cells + 2 * b.syncStages + 3 + t + 1 =
      b.cells + 2 * b.syncStages + 3 + b.tUnit := by omega
  rw [hcycles] at hw
  obtain ⟨hpend, hcount⟩ := hw.unattended senderOn_starts nofun senderOn_leftAlone _ (by omega)
    le_rfl w hw.run_eq
  exact ⟨w, hw, hidle, hclk, hres, hdone, hw.diagLast_eq, hcount,
    idle_run hw.run_eq hidle hpend (sender_syncsOk hsync) senderOn_leftAlone senderOn_diAt⟩

end Sender

/-- The lines of a SEND_BYTE of `v` in `n` cycles from its dispatch, acknowledged as the receiver of
the ring does it (R81, R111): the bit cells, the wait, and the clock high from the 9th pulse on. -/
structure ByteOnLines (b : Build) (v : Byte) (n : Nat) (clk dat : Nat → Level) : Prop where
  before : clk 0 = true
  low : ∀ j : Fin 8, ∀ k, k ≤ b.tUnit → clk (cellStart b j.val + k) = false
  high : ∀ j : Fin 8, ∀ k, k < b.tUnit → clk (cellStart b j.val + 1 + b.tUnit + k) = true
  data : ∀ j : Fin 8, dat (cellStart b j.val + 1 + b.tUnit) = v.getLsbD (7 - j.val)
  wait : ∀ k, k < 2 * b.syncStages + 2 → clk (b.cells + 1 + k) = false
  pulse : ∀ k, b.cells + 2 * b.syncStages + 3 ≤ k → k < n → clk k = true

/-- What a SEND_BYTE drives where it is (R81). -/
theorem SendsAt.after_levels {s : State} {v : Byte} {pt : SendBytePt} {k c : Nat}
    (h : SendsAt s v pt k c) (hp : s.point = .idle) : pt.linesOk (after k s) v := by
  obtain ⟨u, hu, hlines⟩ := h.levels hp
  rwa [after_of_run hu]

theorem senderOn_lines {b : Build} {v : Byte} {n : Nat} (hunit : 1 ≤ b.tUnit)
    (hsync : 1 ≤ b.syncStages) (hlimit : 2 * b.syncStages + 2 ≤ b.ackTimeout)
    (hn : b.cells + 2 * b.syncStages + 3 + b.tUnit ≤ n) :
    ByteOnLines b v n (fun k => (after k (senderOn b v n)).clkOut)
      (fun k => (after k (senderOn b v n)).datOut) := by
  have hs : (senderOn b v n).syncsOk := sender_syncsOk hsync
  have hno (m : Nat) : (senderOn b v n).noReset m := senderOn_leftAlone.noReset m
  have cell (j : Fin 8) : SendsAt (senderOn b v n) v (.clockLow j) (cellStart b j.val) 0 :=
    sendsAt_cellStart senderOn_starts hs hunit (hno _)
  have highs (j : Fin 8) (k : Nat) (hk : k < b.tUnit) := ((cell j).clockHigh hs hk
    (hno _)).after_levels rfl
  refine ⟨rfl, fun j k hk => ?low, fun j k hk => (highs j k hk).1, fun j => (highs j 0 hunit).2,
    fun k hk => ((senderOn_waits hunit hsync hlimit hn hk).after_levels rfl).1, fun k hk hlt => ?_⟩
  case low =>
    cases k with
    | zero => exact ((cell j).after_levels rfl).1
    | succ k =>
      have hcycles : cellStart b j.val + (k + 1) = cellStart b j.val + 1 + k := by omega
      simp only [hcycles]
      exact (((cell j).dataLow hs (k := k) hk (hno _)).after_levels rfl).1
  obtain ⟨m, rfl⟩ := Nat.exists_eq_add_of_le hk
  rcases lt_or_ge m b.tUnit with hm | hm
  · exact ((senderOn_pulses hunit hsync hlimit hn hm).after_levels rfl).1
  · obtain ⟨i, rfl⟩ := Nat.exists_eq_add_of_le hm
    obtain ⟨w, -, -, hclk, -, -, -, -, hrest⟩ := senderOn_ends (v := v) hunit hsync hlimit hn
    obtain ⟨x, hx, hsame⟩ := hrest i
    rw [← Nat.add_assoc]
    simp only [after_of_run hx]
    rw [hsame]
    exact hclk

end Sys2Proof.Proofs

/-! ### The receiver on the sender's lines (R114, R119) -/

namespace Sys2Proof.Proofs
open Sys2Proof.Machine Sys2Proof.Laws

/-! A running RECV_BYTE does not raise ACK_OUT before it ends. -/

section AckLow
variable {s u : State} {i : Instr} {n : Nat}

/-- An operation that runs in the last cycle of a run has run in all of them since its dispatch. -/
theorem RunsTo.running (h : RunsTo i s n u) (hi : u.point.instr = some i) {k : Nat} (h1 : 1 ≤ k)
    (hk : k ≤ n) {x : State} (hx : run k s = .next x) : x.point.instr = some i := by
  rcases Nat.eq_or_lt_of_le hk with rfl | hlt
  · cases hx.symm.trans h.run_eq
    exact hi
  · obtain ⟨x', -, hx', -, hxi, -⟩ := h.cycles k h1 hlt
    cases hx.symm.trans hx'
    exact hxi

theorem ackOut_low_step {v : State} {a a' : RecvByteAct} (hr : u.now.rst = false)
    (hlines : u.linesOk) (hp : u.point = .recvByte a) (hp' : v.point = .recvByte a')
    (hstep : step u = .next v) (hlow : u.ackOut = false) : v.ackOut = false := by
  have hlevel := linesOk_of_recvByte hlines hp
  rw [step_of_running hr (by rw [hp]; nofun), resume_recvByte hp, State.goRecvByte] at hstep
  cases hstep
  revert hp'
  rcases wait_cases u u.edge (a.pt.met u.ci) u.build.edgeTimeout (fun ok w =>
      if ok then u.afterEdge w a .recvByte State.endRecvByte
      else State.endRecvByte a.acc false (w.raiseFailure a.pt.code .alone))
    with ⟨-, e⟩ | ⟨-, -, e⟩ | ⟨-, -, e⟩ <;> rw [e] <;> intro hp'
  · obtain ⟨acc, pt⟩ := a
    cases pt with
    | fall j | rise j | ackRequest => cases hlow.symm.trans hlevel
    | ackRise => exact (edge_ackOut u).trans hlow
    | ackFall => cases hp'
  · exact (edge_ackOut u).trans hlow
  · cases hp'

/-- Once low, ACK_OUT stays low while the RECV_BYTE runs. -/
theorem RunsTo.ackOut_low (h : RunsTo .recvByte s n u) (hi : u.point.instr = some .recvByte)
    (hidle : s.point = .idle) {k m : Nat} (h1 : 1 ≤ k) (hk : k + m ≤ n) {x y : State}
    (hx : run k s = .next x) (hy : run (k + m) s = .next y) (hlow : x.ackOut = false) :
    y.ackOut = false := by
  induction m generalizing y with
  | zero => cases hx.symm.trans hy; exact hlow
  | succ m ih =>
    obtain ⟨z, z', hz, hzz', -, -, hquiet⟩ := h.cycles (k + m) (by omega) (by omega)
    obtain rfl : z' = y := by
      have hrun := hzz'.symm.trans ((run_succ_of_run hz).symm.trans hy)
      injection hrun
    obtain ⟨a, ha⟩ := point_of_recvByte (h.running hi (by omega) (by omega) hz)
    obtain ⟨a', ha'⟩ := point_of_recvByte (h.running hi (by omega) hk hy)
    rcases Bool.eq_false_or_eq_true z.now.rst with hr | hr
    · rw [step, if_pos hr] at hzz'
      cases hzz'
      cases ha'
    · exact ackOut_low_step hr (run_linesOk (linesOk_of_idle hidle) hz) ha ha' hzz'
        (ih (by omega) hz)

end AckLow

/-! The receiver goes through the waits of one byte. -/

/-- `s` dispatches a RECV_BYTE and sees, `SYNC_STAGES` of `b` cycles later, the lines of a SEND_BYTE
of `v` with the build `b` for `n` cycles; its time limit is long enough for them (R177). -/
structure Hears (b : Build) (v : Byte) (n : Nat) (clk dat : Nat → Level) (s : State) : Prop where
  lines : ByteOnLines b v n clk dat
  unit_pos : 1 ≤ b.tUnit
  starts : s.starts .recvByte
  syncs : s.syncsOk
  left : leftAlone s
  before : ∀ t, t < b.syncStages → s.ciAt t = true
  ci_eq : ∀ t, t < n → s.ciAt (t + b.syncStages) = clk t
  di_eq : ∀ t, t < n → s.diAt (t + b.syncStages) = dat t
  wait_long : 2 * b.syncStages + 2 ≤ s.build.edgeTimeout
  unit_long : b.tUnit + 1 ≤ s.build.edgeTimeout
  long : b.cells + 2 * b.syncStages + 4 + s.build.edgeTimeout ≤ n

/-- Every bit cell is over when the wait for the acknowledgement begins. -/
theorem cell_le_cells (b : Build) (j : Fin 8) :
    cellStart b j.val + (1 + 2 * b.tUnit) ≤ b.cells + 1 := by
  rw [← cellStart_succ, ← cellStart_eight]
  exact cellStart_mono b j.isLt

/-- In this cycle the wait for the clock fall of bit `j` begins. -/
def waitStart (b : Build) : Nat → Nat
  | 0 => 1
  | j + 1 => cellStart b j + b.tUnit + 2 + b.syncStages

/-- The accumulator with the first `j` bits of `v` in it (R116). -/
def heldBits (v : Byte) (j : Nat) : Byte := (v >>> (8 - j)) <<< 1

/-- The next bit of `v` completes them. -/
theorem sampleBit_heldBits (v : Byte) (j : Fin 8) :
    sampleBit (heldBits v j.val) j (v.getLsbD (7 - j.val)) =
      if j.val < 7 then heldBits v (j.val + 1) else v := by
  have hor : heldBits v j.val ||| zext8 (v.getLsbD (7 - j.val)) = v >>> (7 - j.val) := by
    apply BitVec.eq_of_getLsbD_eq
    intro i hi
    rw [BitVec.getLsbD_or, getLsbD_zext8, heldBits, BitVec.getLsbD_shiftLeft,
      BitVec.getLsbD_ushiftRight, BitVec.getLsbD_ushiftRight]
    rcases Nat.eq_zero_or_pos i with rfl | hpos
    · simp
    · have hindex : 8 - j.val + (i - 1) = 7 - j.val + i := by omega
      have hlt : ¬i < 1 := by omega
      have hne : i ≠ 0 := by omega
      simp [hi, hindex, hlt, hne]
  rw [sampleBit, hor]
  split_ifs with hj
  · rw [heldBits]
    congr 2
    omega
  · have hzero : 7 - j.val = 0 := by omega
    rw [hzero, BitVec.ushiftRight_zero]

section Hears
variable {b : Build} {v : Byte} {n : Nat} {clk dat : Nat → Level} {s : State}

/-- Between two low phases the clock is high. -/
theorem Hears.high_before_fall (h : Hears b v n clk dat s) {j : Nat} (hj : j ≤ 8) {t : Nat}
    (hge : waitStart b j ≤ t) (hlt : t < cellStart b j + b.syncStages) : s.ciAt t = true := by
  have hlong := h.long
  have hcells := cellStart_eight b
  rcases lt_or_ge t b.syncStages with hbefore | hafter
  · exact h.before t hbefore
  obtain ⟨k, rfl⟩ := Nat.exists_eq_add_of_le' hafter
  have hmono := cellStart_mono b hj
  rw [h.ci_eq k (by omega)]
  cases j with
  | zero =>
    have hk : k = 0 := by simp only [cellStart, Nat.zero_mul] at hlt; omega
    rw [hk]
    exact h.lines.before
  | succ j =>
    rw [cellStart_succ] at hlt
    simp only [waitStart] at hge
    obtain ⟨i, rfl⟩ : ∃ i, k = cellStart b j + 1 + b.tUnit + i :=
      Nat.exists_eq_add_of_le (by omega)
    exact h.lines.high ⟨j, by omega⟩ i (by omega)

/-- The clock fall of a bit, and that of the 9th pulse, comes within the time limit. -/
theorem Hears.sees_fall (h : Hears b v n clk dat s) {j : Nat} (hj : j ≤ 8) :
    waitFrom (fun t => !s.ciAt t) (waitStart b j) s.build.edgeTimeout =
      some (cellStart b j + b.syncStages) := by
  have hlong := h.long
  have hunit := h.unit_pos
  have hunit_long := h.unit_long
  have hwait_long := h.wait_long
  have hcells := cellStart_eight b
  have hmono := cellStart_mono b hj
  have hfall : s.ciAt (cellStart b j + b.syncStages) = false := by
    rw [h.ci_eq _ (by omega)]
    rcases Nat.eq_or_lt_of_le hj with rfl | hlt
    · rw [hcells]; exact h.lines.wait 0 (by omega)
    · exact h.lines.low ⟨j, hlt⟩ 0 (Nat.zero_le _)
  refine waitFrom_eq_some_iff.mpr ⟨?_, ?_, by simp [hfall], fun t hge hlt => by
    simp [h.high_before_fall hj hge hlt]⟩ <;>
  · cases j with
    | zero => simp only [waitStart, cellStart]; omega
    | succ j => rw [cellStart_succ]; simp only [waitStart]; omega

/-- So does the rise after it. -/
theorem Hears.sees_rise (h : Hears b v n clk dat s) (j : Fin 8) :
    waitFrom s.ciAt (cellStart b j.val + b.syncStages + 1) s.build.edgeTimeout =
      some (cellStart b j.val + 1 + b.tUnit + b.syncStages) := by
  have hlong := h.long
  have hunit_long := h.unit_long
  have hcell := cell_le_cells b j
  refine waitFrom_eq_some_iff.mpr ⟨by omega, by omega, ?_, fun t hge hlt => ?_⟩
  · rw [h.ci_eq _ (by omega)]
    exact h.lines.high j 0 h.unit_pos
  · obtain ⟨k, rfl⟩ : ∃ k, t = cellStart b j.val + k + b.syncStages :=
      ⟨t - cellStart b j.val - b.syncStages, by omega⟩
    rw [h.ci_eq _ (by omega)]
    exact h.lines.low j k (by omega)

theorem Hears.noReset (h : Hears b v n clk dat s) (m : Nat) : s.noReset m := h.left.noReset m

/-- One bit: the clock falls, and at its rise the data line shows the bit. -/
theorem Hears.bit (h : Hears b v n clk dat s) (j : Fin 8)
    (hat : ReceivesAt s ⟨heldBits v j.val, .fall j⟩ (waitStart b j.val) 0) :
    ReceivesAt s ⟨sampleBit (heldBits v j.val) j (v.getLsbD (7 - j.val)),
      if j.val < 7 then .fall (j + 1) else .ackRequest⟩ (waitStart b (j.val + 1)) 0 := by
  have hlong := h.long
  have hcell := cell_le_cells b j
  obtain ⟨hfall, hmet⟩ := hat.satisfied h.syncs (h.noReset _) (h.sees_fall j.isLt.le)
  have hlow := hfall.next h.syncs (h.noReset _) hmet rfl
  obtain ⟨hrise, hmet'⟩ := hlow.satisfied h.syncs (h.noReset _) (h.sees_rise j)
  have hdata : s.diAt (cellStart b j.val + 1 + b.tUnit + b.syncStages) =
      v.getLsbD (7 - j.val) := by
    rw [h.di_eq _ (by omega)]
    exact h.lines.data j
  have hstart : waitStart b (j.val + 1) =
      cellStart b j.val + 1 + b.tUnit + b.syncStages + 1 := by
    simp only [waitStart]
    omega
  rw [hstart, ← hdata]
  exact hrise.next h.syncs (h.noReset _) hmet' rfl

theorem Hears.bits (h : Hears b v n clk dat s) (j : Nat) (hj : j < 8) :
    ReceivesAt s ⟨heldBits v j, .fall ⟨j, hj⟩⟩ (waitStart b j) 0 := by
  induction j with
  | zero =>
    have hnone : heldBits v 0 = 0 := by
      rw [heldBits, BitVec.ushiftRight_eq_zero (by omega)]
      rfl
    rw [hnone]
    exact receivesAt_of_starts h.starts
  | succ j ih =>
    have hlt : j < 7 := by omega
    have hnext : (⟨j + 1, hj⟩ : Fin 8) = ⟨j, by omega⟩ + 1 := by
      apply Fin.ext
      rw [Fin.val_add_one_of_lt' (by simpa using hj)]
    have hbit := h.bit ⟨j, by omega⟩ (ih (by omega))
    rw [sampleBit_heldBits, if_pos hlt, if_pos hlt, ← hnext] at hbit
    exact hbit

/-- The whole byte is read, and its acknowledgement requested. -/
theorem Hears.requests (h : Hears b v n clk dat s) :
    ReceivesAt s ⟨v, .ackRequest⟩ (waitStart b 8) 0 := by
  have hbit := h.bit 7 (h.bits 7 (by decide))
  rw [sampleBit_heldBits] at hbit
  exact hbit

/-- The clock fall of the 9th pulse, after which ACK_OUT falls. -/
theorem Hears.acknowledges (h : Hears b v n clk dat s) :
    (∃ c, ReceivesAt s ⟨v, .ackRequest⟩ (b.cells + b.syncStages + 1) c) ∧
      ReceivesAt s ⟨v, .ackRise⟩ (ackFallsAt b) 0 := by
  obtain ⟨hat, hmet⟩ := h.requests.satisfied h.syncs (h.noReset _) (h.sees_fall le_rfl)
  have hcycles : cellStart b 8 + b.syncStages = b.cells + b.syncStages + 1 := by
    rw [cellStart_eight]
    omega
  rw [hcycles] at hat hmet
  exact ⟨⟨_, hat⟩, hat.next h.syncs (h.noReset _) hmet rfl⟩

/-- The last wait times out in this cycle: the sender's clock line stays high (R119). -/
theorem Hears.waits_in_vain (h : Hears b v n clk dat s) :
    ReceivesAt s ⟨v, .ackFall⟩ (b.cells + 3 * b.syncStages + 3 + s.build.edgeTimeout)
      (s.build.edgeTimeout - 1) := by
  have hlong := h.long
  have hwait_long := h.wait_long
  obtain ⟨e, he⟩ : ∃ e, s.build.edgeTimeout = e + 1 := Nat.exists_eq_add_of_le' (by omega)
  have hrise : waitFrom s.ciAt (ackFallsAt b) s.build.edgeTimeout =
      some (b.cells + 2 * b.syncStages + 3 + b.syncStages) := by
    refine waitFrom_eq_some_iff.mpr ⟨by rw [ackFallsAt]; omega, by rw [ackFallsAt]; omega, ?_,
      fun t hge hlt => ?_⟩
    · rw [h.ci_eq _ (by omega)]
      exact h.lines.pulse _ le_rfl (by omega)
    · rw [ackFallsAt] at hge
      obtain ⟨k, rfl⟩ : ∃ k, t = b.cells + 1 + k + b.syncStages :=
        ⟨t - b.cells - 1 - b.syncStages, by omega⟩
      rw [h.ci_eq _ (by omega)]
      exact h.lines.wait k (by omega)
  obtain ⟨hat, hmet⟩ := h.acknowledges.2.satisfied h.syncs (h.noReset _) hrise
  have hfall : ReceivesAt s ⟨v, .ackFall⟩ _ 0 := hat.next h.syncs (h.noReset _) hmet rfl
  have hlast := hfall.counts (m := e) h.syncs (h.noReset _) (by omega) fun k hk => by
    have hindex : b.cells + 2 * b.syncStages + 3 + b.syncStages + 1 + k =
        b.cells + 2 * b.syncStages + 4 + k + b.syncStages := by omega
    rw [hindex, h.ci_eq _ (by omega)]
    simp [RecvBytePt.met, h.lines.pulse _ (show b.cells + 2 * b.syncStages + 3 ≤
      b.cells + 2 * b.syncStages + 4 + k by omega) (by omega)]
  have hcycles : b.cells + 2 * b.syncStages + 3 + b.syncStages + 1 + e =
      b.cells + 3 * b.syncStages + 3 + s.build.edgeTimeout := by omega
  rw [hcycles, Nat.zero_add] at hlast
  rw [he, Nat.add_sub_cancel, ← he]
  exact hlast

/-- The last cycle of the RECV_BYTE of `v`, a timeout. -/
theorem Hears.last_cycle (h : Hears b v n clk dat s) : ∃ u w,
    RunsTo .recvByte s (b.cells + 3 * b.syncStages + 3 + s.build.edgeTimeout) u ∧
      u.point.instr = some .recvByte ∧ step u = .next w ∧ failurePoint u w 0x22 0xFF ∧
      w.point = .idle ∧ w.rxByte = v ∧ w.flag .cmdDone = true := by
  have hwait_long := h.wait_long
  obtain ⟨u, hu, hin⟩ := RunsAt.inCycle h.waits_in_vain h.syncs (h.noReset _)
  have hend : endsWith ⟨v, 0x22, b.cells + 3 * b.syncStages + 3 + s.build.edgeTimeout⟩ .ackFall
      u := by
    refine .inr ⟨rfl, by rw [hin.cnt_eq, hin.build_eq]; omega, ?_⟩
    have hindex : b.cells + 3 * b.syncStages + 3 + s.build.edgeTimeout =
        b.cells + 2 * b.syncStages + 3 + s.build.edgeTimeout + b.syncStages := by omega
    have hlong := h.long
    rw [hin.ci_eq, hindex, h.ci_eq _ (by omega)]
    simp [RecvBytePt.met, h.lines.pulse _ (show b.cells + 2 * b.syncStages + 3 ≤
      b.cells + 2 * b.syncStages + 3 + s.build.edgeTimeout by omega) (by omega)]
  obtain ⟨w, hstep, hfail, hidle, hbyte, -, -, hdone, -⟩ := recvByte_returns
    (h.left.now_of_run hu.run_eq).1 hin.point_eq
    (run_linesOk (linesOk_of_idle h.starts.2.1) hu.run_eq) hend
  exact ⟨u, w, hu, by rw [hin.point_eq]; rfl, hstep, hfail, hidle, hbyte, hdone⟩

/-- ACK_OUT of the receiver, cycle by cycle: it falls once (R117). -/
theorem Hears.ackOut_eq (h : Hears b v n clk dat s) (hs : s.ackOut = true) {k : Nat}
    (hk : k ≤ b.cells + 3 * b.syncStages + 3 + s.build.edgeTimeout) {x : State}
    (hx : run k s = .next x) : x.ackOut = decide (k < ackFallsAt b) := by
  have hidle := h.starts.2.1
  rcases Nat.eq_zero_or_pos k with rfl | hpos
  · cases hx
    rw [hs, ackFallsAt, decide_eq_true (by omega)]
  rcases lt_or_ge k (ackFallsAt b) with hlt | hge
  · rw [decide_eq_true hlt]
    obtain ⟨⟨c, u, hu, hp, -⟩, -⟩ := h.acknowledges
    have hhigh : u.ackOut = true :=
      linesOk_of_recvByte (run_linesOk (linesOk_of_idle hidle) hu.run_eq) hp
    obtain ⟨m, hm⟩ : ∃ m, b.cells + b.syncStages + 1 = k + m :=
      Nat.exists_eq_add_of_le (by rw [ackFallsAt] at hlt; omega)
    by_contra hlow
    rw [Bool.not_eq_true] at hlow
    have hrun := hu.run_eq
    rw [hm] at hrun
    rw [hu.ackOut_low (by rw [hp]; rfl) hidle hpos hm.ge hx hrun hlow] at hhigh
    cases hhigh
  · rw [decide_eq_false (not_lt.mpr hge)]
    obtain ⟨u, -, hu, hi, -⟩ := h.last_cycle
    obtain ⟨y, hy, hp, -⟩ := h.acknowledges.2
    have hlow : y.ackOut = false :=
      linesOk_of_recvByte (run_linesOk (linesOk_of_idle hidle) hy.run_eq) hp
    obtain ⟨m, rfl⟩ := Nat.exists_eq_add_of_le hge
    exact hu.ackOut_low hi hidle (by rw [ackFallsAt]; omega) hk hy.run_eq hx hlow

end Hears

end Sys2Proof.Proofs

/-! ### The two nodes together -/

namespace Sys2Proof.Proofs
open Sys2Proof.Machine Sys2Proof.Laws

/-- A node after reset that accepts no start condition, with RECV_BYTE pending. -/
def receiver (b : Build) (xs : List Input) : State :=
  { State.resetOf b xs with config := 0x04, pendValid := true, pendOp := 5 }

theorem receiver_starts {b : Build} {xs : List Input} (hr : (receiver b xs).now.rst = false) :
    (receiver b xs).starts .recvByte := by
  have hword : decodeCmd (0#4 ++ 5#4) = .instr .recvByte := by decide
  have hdi : (receiver b xs).di = true := getLastD_replicate_true b.syncStages
  exact ⟨hr, rfl, (poll_of_pending hdi rfl).trans (congrArg some hword)⟩

/-- The receiver for `n` cycles on the lines of the sender. -/
def receiverOn (a b : Build) (v : Byte) (n : Nat) : State :=
  receiver b (drivenBy n fun k =>
    pins (after k (senderOn a v n)).clkOut (after k (senderOn a v n)).datOut true)

theorem receiverOn_leftAlone {a b : Build} {v : Byte} {n : Nat} :
    leftAlone (receiverOn a b v n) :=
  leftAlone_of_pins (ack := fun _ => true) rfl

/-- Cycles in which a byte command is dispatched or runs. -/
theorem RunsTo.idleOrByte {i : Instr} {s u : State} {n : Nat} (h : RunsTo i s n u)
    (hstarts : s.starts i) (hi : i = .sendByte ∨ i = .recvByte) {k : Nat} (hk : k < n) :
    ∃ x y, run k s = .next x ∧ step x = .next y ∧ Proofs.idleOrByte x.point := by
  rcases Nat.eq_zero_or_pos k with rfl | hpos
  · exact ⟨s, _, rfl, step_of_starts hstarts, .inl hstarts.2.1⟩
  · obtain ⟨x, y, hx, hxy, hxi, -⟩ := h.cycles k hpos hk
    refine ⟨x, y, hx, hxy, .inr ?_⟩
    rcases hi with rfl | rfl
    · exact .inl (point_of_sendByte hxi)
    · exact .inr (point_of_recvByte hxi)

/-- R177's constraints on the two builds, and the cycles that the transfer takes. -/
structure Matched (a b : Build) (n : Nat) : Prop where
  unit_pos : 1 ≤ a.tUnit
  sync_pos : 1 ≤ a.syncStages
  sync_eq : b.syncStages = a.syncStages
  ack_long : 2 * a.syncStages + 2 ≤ a.ackTimeout
  edge_long : 2 * a.syncStages + 2 ≤ b.edgeTimeout
  unit_long : a.tUnit + 1 ≤ b.edgeTimeout
  cycles : n = a.cells + 3 * a.syncStages + 3 + b.edgeTimeout + 1

section Matched
variable {a b : Build} {v : Byte} {n : Nat}

theorem Matched.hears (h : Matched a b n) :
    Hears a v n (fun k => (after k (senderOn a v n)).clkOut)
      (fun k => (after k (senderOn a v n)).datOut) (receiverOn a b v n) := by
  obtain ⟨hunit, hsync, hsync_eq, hack, hedge, hunit_long, hn⟩ := h
  refine {
    lines := senderOn_lines hunit hsync hack (by omega)
    unit_pos := hunit
    starts := receiver_starts (receiverOn_leftAlone.now_of_run (n := 0) rfl).1
    syncs := by simp [State.syncsOk, receiverOn, receiver, State.resetOf, hsync_eq, hsync]
    left := receiverOn_leftAlone
    before := fun t ht => shownAt_reset _ (hsync_eq ▸ ht)
    ci_eq := fun t ht => ?_
    di_eq := fun t ht => ?_
    wait_long := hedge
    unit_long := hunit_long
    long := ?_ }
  · rw [← hsync_eq]
    exact shownAt_delayed (·.clkIn) ht
  · rw [← hsync_eq]
    exact shownAt_delayed (·.datIn) ht
  · show _ + b.edgeTimeout ≤ _
    omega

/-- What the receiver drives is what the sender was given. -/
theorem Matched.sender_runsOn (h : Matched a b n) : runsOn (senderOn a v n) n
    fun k => pins true true (after k (receiverOn a b v n)).ackOut := by
  have hears : Hears a v n _ _ (receiverOn a b v n) := h.hears
  obtain ⟨u', w', hu', -⟩ := hears.last_cycle
  obtain ⟨hunit, hsync, -, hack, -, hunit_long, hn⟩ := h
  obtain ⟨w, hw, hidle, -, -, -, -, -, hrest⟩ :=
    senderOn_ends (v := v) hunit hsync hack (n := n) (by omega)
  have hnow {k : Nat} (hk : k < n) {x : State} (hx : run k (senderOn a v n) = .next x) :
      x.now = pins true true (after k (receiverOn a b v n)).ackOut := by
    have hle : k ≤ a.cells + 3 * a.syncStages + 3 + b.edgeTimeout := by omega
    obtain ⟨y, hy⟩ : ∃ y, run k (receiverOn a b v n) = .next y := by
      rcases Nat.eq_or_lt_of_le hle with rfl | hlt
      · exact ⟨u', hu'.run_eq⟩
      · obtain ⟨y, -, hy, -⟩ := hu'.idleOrByte hears.starts (.inr rfl) hlt
        exact ⟨y, hy⟩
    rw [after_of_run hy, hears.ackOut_eq rfl hle hy]
    exact now_of_pins senderOn_leftAlone rfl hk hx
  intro k hk
  rcases lt_or_ge k (a.cells + 2 * a.syncStages + 3 + a.tUnit) with hlt | hge
  · obtain ⟨x, y, hx, hxy, hp⟩ := hw.idleOrByte senderOn_starts (.inl rfl) hlt
    exact ⟨x, y, hx, hxy, hp, hnow hk hx⟩
  · obtain ⟨m, rfl⟩ := Nat.exists_eq_add_of_le hge
    obtain ⟨x, hx, hsame⟩ := hrest m
    obtain ⟨y, hy, -⟩ := hrest (m + 1)
    exact ⟨x, y, hx, (run_succ_of_run hx).symm.trans hy, .inl (by rw [hsame]; exact hidle),
      hnow hk hx⟩

theorem Matched.receiver_runsOn (h : Matched a b n) : runsOn (receiverOn a b v n) n
    fun k => pins (after k (senderOn a v n)).clkOut (after k (senderOn a v n)).datOut true := by
  have hears : Hears a v n _ _ (receiverOn a b v n) := h.hears
  obtain ⟨u, w, hu, hi, hstep, -⟩ := hears.last_cycle
  have hn : n = a.cells + 3 * a.syncStages + 3 + b.edgeTimeout + 1 := h.cycles
  intro k hk
  obtain ⟨x, y, hx, hxy, hp⟩ : ∃ x y, run k (receiverOn a b v n) = .next x ∧
      step x = .next y ∧ idleOrByte x.point := by
    rcases Nat.eq_or_lt_of_le (Nat.lt_succ_iff.mp (hn ▸ hk)) with rfl | hlt
    · exact ⟨u, w, hu.run_eq, hstep, .inr (.inr (point_of_recvByte hi))⟩
    · exact hu.idleOrByte hears.starts (.inr rfl) hlt
  exact ⟨x, y, hx, hxy, hp, now_of_pins receiverOn_leftAlone rfl hk hx⟩

/-- The receiver has recorded one failure, the last one (R119). -/
theorem Matched.receiver_ends (h : Matched a b n) : ∃ w,
    run n (receiverOn a b v n) = .next w ∧ w.point = .idle ∧ w.rxByte = v ∧
      w.diagLast = 0x22 ∧ w.diagCount = 1 ∧ w.flag .cmdDone = true := by
  have hears : Hears a v n _ _ (receiverOn a b v n) := h.hears
  obtain ⟨u, w, hu, -, hstep, ⟨hlast, -, hcount, -⟩, hidle, hbyte, hdone⟩ := hears.last_cycle
  have hrun : run (a.cells + 3 * a.syncStages + 3 + b.edgeTimeout + 1) (receiverOn a b v n) =
      .next w := (run_succ_of_run hu.run_eq).trans hstep
  rw [← h.cycles] at hrun
  obtain ⟨-, hzero⟩ := hu.unattended hears.starts nofun hears.left _ (by omega) le_rfl u hu.run_eq
  have hsel := (hears.left.now_of_run hu.run_eq).2
  have hhost : u.countAfterHost = 0 := by
    rw [State.countAfterHost, if_neg (by simp [hsel]), hzero]
    rfl
  refine ⟨w, hrun, hidle, hbyte, hlast, ?_, hdone⟩
  rw [hcount, hhost]
  decide

end Matched

/-- Settles O54: on the lines of the ring the sender is acknowledged and the receiver reads its
byte; the receiver's last wait is in vain, since the sender leaves its clock line high. -/
theorem adjacentNodesTransferAByte : Obligations.AdjacentNodesTransferAByte := by
  intro ba bb v hwf _ hsync_eq hack hedge hunit_long a b
  simp only [Build.wf, Bool.and_eq_true, decide_eq_true_eq] at hwf
  obtain ⟨⟨⟨-, hunit⟩, -⟩, hsync⟩ := hwf
  obtain ⟨n, hn⟩ : ∃ n, n = ba.cells + 3 * ba.syncStages + 3 + bb.edgeTimeout + 1 := ⟨_, rfl⟩
  have h : Matched ba bb n := ⟨hunit, hsync, hsync_eq, hack, hedge, hunit_long, hn⟩
  obtain ⟨w, -, hidle, -, hres, hdone, hlast, hcount, hrest⟩ :=
    senderOn_ends (v := v) hunit hsync hack (n := n) (by omega)
  obtain ⟨m, hm⟩ : ∃ m, n = ba.cells + 2 * ba.syncStages + 3 + ba.tUnit + m :=
    Nat.exists_eq_add_of_le (by omega)
  obtain ⟨x, hx, hsame⟩ := hrest m
  rw [← hm] at hx
  obtain ⟨y, hy, hend⟩ := h.receiver_ends (v := v)
  have hring := ring_run_of_runsOn (h.sender_runsOn (v := v)) h.receiver_runsOn
  rw [after_of_run hx, after_of_run hy] at hring
  refine ⟨n, unplugged x, unplugged y, hring, ?_, ?_, ?_, ?_, ?_, hend⟩ <;> rw [hsame]
  · exact hidle
  · exact hres
  · exact hdone
  · exact hlast
  · exact hcount

end Sys2Proof.Proofs

/-! ## The end of an attempt (R124, R125, R136, R137) -/

namespace Sys2Proof.Proofs
open Sys2Proof.Machine Sys2Proof.Laws

/-- The last cycle of a stop condition returns (R101). -/
theorem goPhyStop_data {t w : State} {wrap : PhyStopPt → Point} {ret : State → State}
    (h : t.build.tDelay ≤ t.cnt + 1) : t.goPhyStop w .data wrap ret = ret w :=
  delay_of_le t w ret h

section AfterStop
variable {t w : State} {m : MsgSendAct} {wrap : MsgSendAct → Point} {ret : Bool → State → State}

/-- A failed attempt below `RETRY_MAX` is followed by the next one (R124, R125). -/
theorem afterStop_of_retry (hfail : m.fail = true) (hmax : m.attempt ≠ t.build.retryMax) :
    t.afterStop w m wrap ret = State.enter { w with clkOut := true, datOut := true }
      (wrap ⟨m.src, m.attempt + 1, false, 0, .start .high⟩) := by
  rw [State.afterStop, if_neg (by simp [hfail]), if_neg hmax]
  rfl

/-- An attempt without a failed byte, or the last one, ends the `MsgSend` (R124, R125). -/
theorem afterStop_of_end (h : m.fail = false ∨ m.attempt = t.build.retryMax) :
    t.afterStop w m wrap ret = ret (!m.fail) (sendEnded w m) := by
  unfold State.afterStop
  split_ifs with hfail hmax
  · simp [State.endMsgSend, sendEnded, MsgSendAct.endEvent, hfail]
  · simp [State.endMsgSend, sendEnded, MsgSendAct.endEvent, hfail]
  · exact absurd h (not_or.mpr ⟨hfail, hmax⟩)

end AfterStop

/-- The last cycle of the stop condition of an attempt. -/
theorem resume_of_stop {s : State} {f : FrameSource} {m : MsgSendAct}
    (hp : s.point = msgSendPoint f m) (hm : m.pt = .stop .data) (hcnt : s.build.tDelay ≤ s.cnt + 1)
    (w : State) : s.resume w = s.afterStop w m (msgSendPoint f) (afterMsgSend s f) := by
  obtain ⟨src, attempt, fail, p, pt⟩ := m
  cases hm
  rw [resume_of_msgSend hp, goMsgSend_stop, goPhyStop_data hcnt]

/-- A stop condition meets no failure (R142). -/
theorem failure_of_stop {s : State} {f : FrameSource} {m : MsgSendAct} (hm : m.pt = .stop .data) :
    Point.failure s (msgSendPoint f m) = none := by
  have hnone : m.failure s = none := by simp only [MsgSendAct.failure, hm]
  cases f <;> exact hnone

theorem flag_of_sets {w u : State} {es : List Event} (h : sets w u es) {e : Event} (he : e ∈ es) :
    u.flag e = true := by
  rw [h e]
  simp [he]

/-- The end of a SEND_MSG sets SEND_OK or SEND_FAILED, and CMD_DONE (R124, R128). -/
theorem endSendMsg_sets (w : State) (m : MsgSendAct) (ok : Bool) :
    sets w (State.endSendMsg ok (sendEnded w m)) [m.endEvent, .cmdDone] :=
  sets_two _ _ rfl rfl

/-- The cycle that ends a SEND_MSG. -/
theorem step_of_sendMsg_end {s : State} {m : MsgSendAct} (hr : s.now.rst = false)
    (hp : s.point = .sendMsg m) (hm : m.pt = .stop .data) (hcnt : s.build.tDelay ≤ s.cnt + 1)
    (hend : m.fail = false ∨ m.attempt = s.build.retryMax) :
    step s = .next (State.endSendMsg (!m.fail) (sendEnded s.edge m)) := by
  rw [step_of_running hr (hp ▸ nofun), resume_of_stop (f := .tx) hp hm hcnt, afterStop_of_end hend]
  rfl

/-- The cycle that ends the `MsgSend` of a relay. -/
theorem step_of_relay_end {s : State} {m : MsgSendAct} (hr : s.now.rst = false)
    (hp : s.point = .receive (.relay m)) (hm : m.pt = .stop .data)
    (hcnt : s.build.tDelay ≤ s.cnt + 1) (hend : m.fail = false ∨ m.attempt = s.build.retryMax) :
    step s = .next (s.afterRelay (sendEnded s.edge m)) := by
  rw [step_of_running hr (hp ▸ nofun), resume_of_stop (f := .frame) hp hm hcnt,
    afterStop_of_end hend]
  rfl

/-- Settles O34: the three branches after the stop condition, of which none meets a failure. -/
theorem attemptEndsOrIsRetried : Obligations.AttemptEndsOrIsRetried := by
  intro s f m hr hp hm hcnt
  have hstep := step_of_running hr (hp ▸ msgSendPoint_ne_idle f m)
  have hquiet := eachFailureIsRecordedWhereItOccurs s _ hr hstep
  rw [hp, failure_of_stop hm] at hquiet
  refine ⟨_, hstep, hquiet, ?sent, ?abandoned, ?retried⟩
  case sent =>
    rintro rfl hfail
    have hsets := endSendMsg_sets s.edge m (!m.fail)
    rw [resume_of_stop hp hm hcnt, afterStop_of_end (.inl hfail)]
    refine ⟨rfl, flag_of_sets hsets ?_, flag_of_sets hsets (by simp), rfl, ?_, rfl⟩
    · simp [MsgSendAct.endEvent, hfail]
    · rw [hfail]; rfl
  case abandoned =>
    rintro rfl hfail hmax
    have hsets := endSendMsg_sets s.edge m (!m.fail)
    rw [resume_of_stop hp hm hcnt, afterStop_of_end (.inr hmax)]
    refine ⟨rfl, flag_of_sets hsets ?_, flag_of_sets hsets (by simp), rfl, ?_, rfl⟩
    · simp [MsgSendAct.endEvent, hfail]
    · rw [hfail]; rfl
  case retried =>
    intro hfail hmax
    rw [resume_of_stop hp hm hcnt, afterStop_of_retry hfail hmax]
    exact ⟨rfl, rfl, rfl, rfl, edge_lastAttempts s⟩

/-! ### The end of a relay (R136, R137, R139) -/

theorem atDelay_relayAfter : AtDelay (.receive .relayAfter) Build.tSettle fun _ w => w.endRelay :=
  ⟨nofun, fun t w hp => by simp only [State.resume, hp]; rfl⟩

/-- The end of a reception by MSG_RELAYED: the event, the idle lines and `IDLE_POLL`. -/
theorem endRelay_ends (w : State) : w.endRelay.point = .idle ∧ w.endRelay.rxAct = false ∧
    w.endRelay.flag .msgRelayed = true ∧ w.endRelay.clkOut = true ∧ w.endRelay.datOut = true ∧
    w.endRelay.ackOut = true :=
  have hsets : sets w w.endRelay [.msgRelayed] := sets_one _ rfl rfl
  ⟨rfl, rfl, flag_of_sets hsets (by simp), rfl, rfl, rfl⟩

/-- The end of a relay's `MsgSend` sets SEND_OK or SEND_FAILED, with or without the bracket. -/
theorem afterRelay_flag (t w : State) (m : MsgSendAct) :
    (t.afterRelay (sendEnded w m)).flag m.endEvent = true := by
  have hbracket : sets w ((sendEnded w m).linesIdle.enter (.receive .relayAfter)) [m.endEvent] :=
    sets_one _ rfl rfl
  have hdirect : sets w (sendEnded w m).endRelay [m.endEvent, .msgRelayed] := sets_two _ _ rfl rfl
  unfold State.afterRelay
  split
  · exact flag_of_sets hbracket (by simp)
  · exact flag_of_sets hdirect (by simp)

/-- What the end of a relay's `MsgSend` leaves, with or without the bracket. -/
theorem afterRelay_registers (t w : State) (m : MsgSendAct) :
    let u := t.afterRelay (sendEnded w m)
    u.txAct = false ∧ u.lastAttempts = BitVec.ofNat 8 m.attempt ∧ u.cmdResult = w.cmdResult ∧
      u.clkOut = true ∧ u.datOut = true ∧ u.ackOut = true := by
  unfold State.afterRelay
  split <;> simp

/-- Settles O40: with CONFIG.RESYNC = 0 the reception ends in this cycle, with 1 the bracket's
`DELAY` comes first. -/
theorem relayEndsWithMsgRelayed : Obligations.RelayEndsWithMsgRelayed := by
  intro s m hp hm hcnt hend hpos hn
  rw [Nat.add_comm] at hn
  have hr := now_rst_of_run (u := s) (noReset_mono hn (Nat.le_add_left 1 _)) rfl
  have hstep := step_of_relay_end hr hp hm hcnt hend
  obtain ⟨htx, hattempts, hresult, hclk, hdat, hack⟩ := afterRelay_registers s s.edge m
  have hevent : m.endEvent = if m.fail = false then .sendOk else .sendFailed := by
    cases hf : m.fail <;> simp [MsgSendAct.endEvent, hf]
  refine ⟨_, hstep, htx, hattempts, hevent ▸ afterRelay_flag s s.edge m,
    hresult.trans (edge_cmdResult s), hclk, hdat, hack, fun hresync => ?direct, fun hresync => ?bracket⟩
  case direct =>
    rw [State.afterRelay, if_neg (by simp [hresync])]
    obtain ⟨hidle, hrx, hflag, -⟩ := endRelay_ends (sendEnded s.edge m)
    exact ⟨hidle, hrx, hflag⟩
  case bracket =>
    rw [State.afterRelay, if_pos hresync] at hstep ⊢
    rw [Nat.add_comm] at hn
    obtain ⟨u, hu⟩ := atDelay_relayAfter.elapses
      (s := (sendEnded s.edge m).linesIdle.enter (.receive .relayAfter)) rfl
      (congrArg Build.tSettle (edge_build s)) hpos (noReset_of_run hn (run_succ_of_step hstep))
    exact ⟨rfl, _, hu.run_eq, endRelay_ends u.edge⟩

end Sys2Proof.Proofs

/-! ## Spans of a run

What an operation does in a stretch of its cycles: a property of each of their states, what every
step of the stretch keeps, and the levels that the synchronisers show at its end. -/

namespace Sys2Proof.Proofs
open Sys2Proof.Machine Sys2Proof.Laws

/-- In the cycles from `b` up to, but not in, `n` of the run from `s` the state has the property
`Q`. -/
def Throughout (Q : State → Prop) (s : State) (b n : Nat) : Prop :=
  ∀ k, b ≤ k → k < n → ∃ x, run k s = .next x ∧ Q x

section Spans
variable {Q R : State → Prop} {s t u v : State} {b m n : Nat}

theorem Throughout.nil : Throughout Q s n n := fun _ hb hn => absurd hn (not_lt.mpr hb)

theorem Throughout.trans (h : Throughout Q s b m) (h' : Throughout Q s m n) : Throughout Q s b n :=
  fun k hb hn => (lt_or_ge k m).elim (h k hb) fun hm => h' k hm hn

theorem Throughout.mono (h : Throughout Q s b n) (himp : ∀ x, Q x → R x) : Throughout R s b n :=
  fun k hb hn => (h k hb hn).imp fun _ hx => ⟨hx.1, himp _ hx.2⟩

theorem Throughout.succ (h : Throughout Q s b n) (hu : run n s = .next u) (hq : Q u) :
    Throughout Q s b (n + 1) := by
  intro k hb hk
  rcases Nat.lt_succ_iff_lt_or_eq.mp hk with hlt | rfl
  · exact h k hb hlt
  · exact ⟨u, hu, hq⟩

/-- The cycles after the one in which an operation starts, counted from the state it leads to. -/
theorem Throughout.after_start (h : Throughout Q s 1 (n + 1)) (hstep : step s = .next t) :
    ∀ k, k < n → ∃ x, run k t = .next x ∧ Q x := by
  intro k hk
  rw [← run_succ_of_step hstep]
  exact h (k + 1) (by omega) (by omega)

/-- What every step from a cycle of the span keeps holds at its end. -/
theorem Throughout.carries (h : Throughout Q s b n) (hn : s.noReset n) (hbn : b ≤ n)
    (hkeeps : ∀ k x y, b ≤ k → k < n → run k s = .next x → x.now.rst = false →
      step x = .next y → Q x → R x → R y)
    (hu : run b s = .next u) (hR : R u) (hv : run n s = .next v) : R v := by
  induction n, hbn using Nat.le_induction generalizing v with
  | base => cases hu.symm.trans hv; exact hR
  | succ n hbn ih =>
    obtain ⟨x, hx, hq⟩ := h n hbn (Nat.lt_succ_self n)
    have hRx := ih (fun k hb hk => h k hb (by omega)) (noReset_mono hn (Nat.le_succ n))
      (fun k x y hb hk => hkeeps k x y hb (by omega)) hx
    exact hkeeps n x v hbn (Nat.lt_succ_self n) hx (now_rst_of_run hn hx)
      ((run_succ_of_run hx).symm.trans hv) hq hRx

/-- What every step between two cycles of the span keeps holds in all of them. -/
theorem Throughout.keeps (h : Throughout Q s b n) (hn : s.noReset n)
    (hkeeps : ∀ x y, x.now.rst = false → step x = .next y → Q x → Q y → R x → R y)
    (hu : run b s = .next u) (hR : R u) : Throughout (fun x => Q x ∧ R x) s b n := by
  intro k hb hk
  induction k, hb using Nat.le_induction with
  | base =>
    obtain ⟨x, hx, hq⟩ := h b le_rfl hk
    cases hu.symm.trans hx
    exact ⟨u, hu, hq, hR⟩
  | succ k hb ih =>
    obtain ⟨x, hx, hq, hRx⟩ := ih (by omega)
    obtain ⟨y, hy, hqy⟩ := h (k + 1) (by omega) hk
    exact ⟨y, hy, hqy, hkeeps x y (now_rst_of_run (noReset_mono hn (by omega)) hx)
      ((run_succ_of_run hx).symm.trans hy) hq hqy hRx⟩

/-- The cycle that a run has come to: its build and its levels. -/
theorem inCycle_of_run (hs : s.syncsOk) (hn : s.noReset n) (hu : run n s = .next u) :
    InCycle s u.point n u.cnt u := by
  obtain ⟨hci, hdi, hai⟩ := synchroniserDelay n s u hs hn hu
  exact ⟨rfl, rfl, (run_environment hn hu).1, hci, hdi, hai⟩

end Spans

end Sys2Proof.Proofs

/-! ## The cycles of a SEND_MSG (R124, R127)

`MsgAt` says where a SEND_MSG stands, and that the cycles before it met no failure. The steps are
those of O58. -/

namespace Sys2Proof.Proofs
open Sys2Proof.Machine Sys2Proof.Laws

/-- A cycle of the SEND_MSG dispatched in `s` that meets no failure, at a point of `MsgSend` with the
property `S`. -/
def sendsQuietly (S : MsgSendAct → Prop) (s x : State) : Prop :=
  SendsFrom s x ∧ ∃ m, x.point = .sendMsg m ∧ S m ∧ m.failure x = none

/-- A cycle of a SEND_MSG. -/
def inSendMsg (x : State) : Prop := x.point.instr = some .sendMsg

theorem inSendMsg_of_point {x : State} {m : MsgSendAct} (h : x.point = .sendMsg m) : inSendMsg x := by
  rw [inSendMsg, h]
  rfl

theorem sendsQuietly.inSendMsg {S : MsgSendAct → Prop} {s x : State} (h : sendsQuietly S s x) :
    inSendMsg x := by
  obtain ⟨-, m, hp, -⟩ := h
  exact inSendMsg_of_point hp

theorem sendsQuietly.mono {S S' : MsgSendAct → Prop} {s x : State} (h : sendsQuietly S s x)
    (himp : ∀ m, S m → S' m) : sendsQuietly S' s x := by
  obtain ⟨hsends, m, hp, hS, hf⟩ := h
  exact ⟨hsends, m, hp, himp m hS, hf⟩

/-- Such a cycle records no failure point (R142). -/
theorem sendsQuietly.step {S : MsgSendAct → Prop} {s x : State} (h : sendsQuietly S s x)
    (hr : x.now.rst = false) : ∃ y, step x = .next y ∧ noFailurePoint x y := by
  obtain ⟨-, m, hp, -, hf⟩ := h
  have hstep := step_of_running hr (by rw [hp]; nofun)
  have hquiet := eachFailureIsRecordedWhereItOccurs x _ hr hstep
  have hnone : x.point.failure x = none := by rw [hp]; exact hf
  rw [hnone] at hquiet
  exact ⟨_, hstep, hquiet⟩

/-- In cycle `n` the SEND_MSG dispatched in `s` is at `m`, with the counter at `c`; from cycle `b` on
it has met no failure, at points with the property `S`. -/
structure MsgAt (S : MsgSendAct → Prop) (s : State) (b : Nat) (m : MsgSendAct) (n c : Nat) :
    Prop where
  span : Throughout (sendsQuietly S s) s b n
  here : ∃ u, run n s = .next u ∧ u.point = .sendMsg m ∧ u.cnt = c ∧ SendsFrom s u

/-- In cycle `n` the SEND_MSG dispatched in `s` enters `m`. -/
def EntersAt (s : State) (m : MsgSendAct) (n : Nat) : Prop :=
  ∃ u, run n s = .next u ∧ u.point = .sendMsg m ∧ u.cnt = 0 ∧ SendsFrom s u

section Walk
variable {S : MsgSendAct → Prop} {s : State} {m m' : MsgSendAct} {b n c l : Nat}

theorem EntersAt.msgAt (h : EntersAt s m n) : MsgAt S s n m n 0 := ⟨.nil, h⟩

/-- No failure is met before the last cycle of a timed statement of `MsgSend` (R142). -/
theorem msgSend_failure_of_lt {t : State} (h : t.cnt + 1 < m.limit t.build) :
    m.failure t = none := by
  obtain ⟨src, attempt, fail, p, pt⟩ := m
  cases pt with
  | byte a => exact congrArg (Option.map _) (sendByte_failure_of_lt h)
  | _ => rfl

/-- A cycle without a failure that goes on to a point of the SEND_MSG. -/
theorem MsgAt.step {c' : Nat} (h : MsgAt S s b m n c) (hs : s.syncsOk) (hn : s.noReset (n + 1))
    (hS : S m)
    (hgo : ∀ u, InCycle s (.sendMsg m) n c u → u.now.rst = false → SendsFrom s u →
      m.failure u = none ∧ ∃ v, Machine.step u = .next v ∧ v.point = .sendMsg m' ∧ v.cnt = c') :
    MsgAt S s b m' (n + 1) c' := by
  obtain ⟨hspan, u, hu, hp, hc, hsends⟩ := h
  have hr := now_rst_of_run hn hu
  have hin := inCycle_of_run hs (noReset_mono hn (Nat.le_succ n)) hu
  rw [hp, hc] at hin
  obtain ⟨hf, v, hstep, hp', hc'⟩ := hgo u hin hr hsends
  exact ⟨hspan.succ hu ⟨hsends, m, hp, hS, hf⟩, v, (run_succ_of_run hu).trans hstep, hp', hc',
    hsends.step hr hstep (inSendMsg_of_point hp')⟩

/-- A timed statement counts up to its last cycle; the wait for the acknowledgement does so while
`ai` is 1. -/
theorem MsgAt.counts (h : MsgAt S s b m n 0) (hs : s.syncsOk) (hn : s.noReset (n + l))
    (hl : l < m.limit s.build) (hS : S m)
    (hwait : ∀ v, m.pt = .byte ⟨v, .ackWait⟩ → ∀ i, i < l → s.aiAt (n + i) = true) :
    MsgAt S s b m (n + l) l := by
  induction l with
  | zero => exact h
  | succ l ih =>
    have hat := ih (noReset_mono hn (by omega)) (by omega) fun v hv i hi => hwait v hv i (by omega)
    refine hat.step hs hn hS fun u hu hr _ => ?_
    have hcnt : u.cnt + 1 < m.limit u.build := by rw [hu.cnt_eq, hu.build_eq]; exact hl
    obtain ⟨hcounts, -⟩ := attemptGoesThroughTheFrame.2 u .tx m hr hu.point_eq
    refine ⟨msgSend_failure_of_lt hcnt, _, hcounts hcnt ?_, (edge_point u).trans hu.point_eq,
      congrArg (· + 1) hu.cnt_eq⟩
    rintro ⟨v, hv, hai⟩
    rw [hu.ai_eq, hwait v hv l (Nat.lt_succ_self l)] at hai
    cases hai

/-- The last cycle of a timed statement. -/
theorem MsgAt.leads (h : MsgAt S s b m n c) (hs : s.syncsOk) (hn : s.noReset (n + 1)) (hS : S m)
    (hgo : ∀ u, InCycle s (.sendMsg m) n c u → u.now.rst = false → SendsFrom s u →
      m.failure u = none ∧ ∃ clk dat, u.leadsTo (.sendMsg m') clk dat) :
    MsgAt S s b m' (n + 1) 0 := by
  refine h.step hs hn hS fun u hu hr hsends => ?_
  obtain ⟨hf, clk, dat, v, hstep, hp, hc, -⟩ := hgo u hu hr hsends
  exact ⟨hf, v, hstep, hp, hc⟩

/-- A `DELAY` of `l` cycles and the step at its end. -/
theorem MsgAt.delays (h : MsgAt S s b m n 0) (hs : s.syncsOk) (hn : s.noReset (n + l)) (hS : S m)
    (hl : m.limit s.build = l) (hpos : 1 ≤ l) (hno : ∀ v, m.pt ≠ .byte ⟨v, .ackWait⟩)
    (hgo : ∀ u, InCycle s (.sendMsg m) (n + (l - 1)) (l - 1) u → u.now.rst = false →
      SendsFrom s u → m.failure u = none ∧ ∃ clk dat, u.leadsTo (.sendMsg m') clk dat) :
    MsgAt S s b m' (n + l) 0 := by
  obtain ⟨k, rfl⟩ := Nat.exists_eq_add_of_le' hpos
  exact (h.counts hs (noReset_mono hn (Nat.le_succ _)) (by omega) hS
    fun v hv => absurd hv (hno v)).leads hs hn hS hgo

end Walk

/-! ### The points of a SEND_MSG -/

/-- The start condition of an attempt. -/
def startAt (attempt : Nat) (q : PhyStartPt) : MsgSendAct := ⟨.tx, attempt, false, 0, .start q⟩

/-- The byte at frame position `p` of the SEND_MSG dispatched in `s`. -/
def byteAt (s : State) (attempt : Nat) (fail : Bool) (p : Nat) (q : SendBytePt) : MsgSendAct :=
  ⟨.tx, attempt, fail, p, .byte ⟨s.frameByte .tx p, q⟩⟩

/-- The stop condition of an attempt whose last byte stands at frame position `p`. -/
def stopAt (attempt : Nat) (fail : Bool) (p : Nat) (q : PhyStopPt) : MsgSendAct :=
  ⟨.tx, attempt, fail, p, .stop q⟩

/-- What follows the byte at frame position `p`: the next byte, or the stop condition (R124). -/
def afterByteAt (s : State) (attempt : Nat) (fail : Bool) (p : Nat) : MsgSendAct :=
  if p + 1 < s.frameCount .tx then byteAt s attempt fail (p + 1) (.clockLow 0)
  else stopAt attempt fail p .clock

/-- While the SEND_MSG runs its frame stands. -/
theorem SendsFrom.frame {s u : State} (h : SendsFrom s u) :
    u.frameCount .tx = s.frameCount .tx ∧ ∀ p, u.frameByte .tx p = s.frameByte .tx p := by
  obtain ⟨hsame, -⟩ := h
  exact ⟨hsame.frameCount .tx, hsame.frameByte .tx⟩

section Phases
variable {S : MsgSendAct → Prop} {s : State} {a p b n : Nat} {f : Bool}

/-- The start condition, of `2*T_DELAY` cycles (R100). -/
theorem MsgAt.startCondition (h : MsgAt S s b (startAt a .high) n 0) (hs : s.syncsOk)
    (hS : ∀ q, S (startAt a q)) (hpos : 1 ≤ s.build.tDelay)
    (hn : s.noReset (n + s.build.tDelay + s.build.tDelay)) :
    MsgAt S s b (byteAt s a false 0 (.clockLow 0)) (n + s.build.tDelay + s.build.tDelay) 0 := by
  have hlow : MsgAt S s b (startAt a .low) (n + s.build.tDelay) 0 := by
    refine h.delays hs (noReset_mono hn (by omega)) (hS _) rfl hpos nofun fun u hu hr _ => ?_
    obtain ⟨-, hhigh, -⟩ := attemptGoesThroughTheFrame.2 u .tx _ hr hu.point_eq
    exact ⟨rfl, _, _, hhigh rfl (by rw [hu.cnt_eq, hu.build_eq]; omega)⟩
  refine hlow.delays hs hn (hS _) rfl hpos nofun fun u hu hr hsends => ?_
  obtain ⟨-, -, hlow, -⟩ := attemptGoesThroughTheFrame.2 u .tx _ hr hu.point_eq
  rw [byteAt, ← hsends.frame.2]
  exact ⟨rfl, _, _, hlow rfl (by rw [hu.cnt_eq, hu.build_eq]; omega)⟩

/-- The stop condition, up to its last cycle (R101). -/
theorem MsgAt.stopCondition {d : Nat} (h : MsgAt S s b (stopAt a f p .clock) n 0) (hs : s.syncsOk)
    (hS : ∀ q, S (stopAt a f p q)) (hd : s.build.tDelay = d + 1)
    (hn : s.noReset (n + (d + 1) + d)) : MsgAt S s b (stopAt a f p .data) (n + (d + 1) + d) d := by
  have hdata : MsgAt S s b (stopAt a f p .data) (n + (d + 1)) 0 := by
    refine h.delays hs (noReset_mono hn (by omega)) (hS _) hd (by omega) nofun fun u hu hr _ => ?_
    obtain ⟨-, -, -, -, -, -, -, -, -, hclock⟩ :=
      attemptGoesThroughTheFrame.2 u .tx _ hr hu.point_eq
    exact ⟨rfl, _, _, hclock rfl (by rw [hu.cnt_eq, hu.build_eq]; omega)⟩
  exact hdata.counts hs hn (show d < s.build.tDelay by omega) (hS _) nofun

/-- What follows a bit cell that meets no failure (R108). -/
def afterCellPt (j : Fin 8) : SendBytePt := if j.val < 7 then .clockLow (j + 1) else .ackWait

/-- A bit cell of `1 + 2*T_UNIT` cycles; after the last one `ai` has to be 1 (R81, R111). -/
theorem MsgAt.bitCell {j : Fin 8} (h : MsgAt S s b (byteAt s a f p (.clockLow j)) n 0)
    (hs : s.syncsOk) (hS : ∀ q, S (byteAt s a f p q)) (hpos : 1 ≤ s.build.tUnit)
    (hn : s.noReset (n + 1 + s.build.tUnit + s.build.tUnit))
    (hai : j = 7 → s.aiAt (n + 1 + s.build.tUnit + (s.build.tUnit - 1)) = true) :
    MsgAt S s b (byteAt s a f p (afterCellPt j)) (n + 1 + s.build.tUnit + s.build.tUnit) 0 := by
  have hdata : MsgAt S s b (byteAt s a f p (.dataLow j)) (n + 1) 0 := by
    refine h.delays hs (noReset_mono hn (by omega)) (hS _) rfl le_rfl (by simp [byteAt]) fun u hu hr _ => ?_
    obtain ⟨-, -, -, hlow, -⟩ := attemptGoesThroughTheFrame.2 u .tx _ hr hu.point_eq
    exact ⟨rfl, _, _, hlow _ j rfl⟩
  have hhigh : MsgAt S s b (byteAt s a f p (.clockHigh j)) (n + 1 + s.build.tUnit) 0 := by
    refine hdata.delays hs (noReset_mono hn (by omega)) (hS _) rfl hpos (by simp [byteAt]) fun u hu hr _ => ?_
    obtain ⟨-, -, -, -, hdata, -⟩ := attemptGoesThroughTheFrame.2 u .tx _ hr hu.point_eq
    exact ⟨rfl, _, _, hdata _ j rfl (by rw [hu.cnt_eq, hu.build_eq]; omega)⟩
  refine hhigh.delays hs hn (hS _) rfl hpos (by simp [byteAt]) fun u hu hr _ => ?_
  have hcnt : u.build.tUnit ≤ u.cnt + 1 := by rw [hu.cnt_eq, hu.build_eq]; omega
  obtain ⟨-, -, -, -, -, hcell, hlast, -⟩ := attemptGoesThroughTheFrame.2 u .tx _ hr hu.point_eq
  have hnone (h7 : j = 7 → u.ai = true) : MsgSendAct.failure u (byteAt s a f p (.clockHigh j)) =
      none := by
    refine congrArg (Option.map _) (if_neg ?_)
    rintro ⟨hj, -, hai⟩
    rw [h7 hj] at hai
    cases hai
  unfold afterCellPt
  split
  · rename_i hj
    exact ⟨hnone (by rintro rfl; exact absurd hj (by decide)), _, _, hcell _ j rfl hj hcnt⟩
  · obtain rfl : j = 7 := by omega
    have hone : u.ai = true := hu.ai_eq.trans (hai rfl)
    exact ⟨hnone fun _ => hone, _, _, hlast _ rfl hcnt hone⟩

theorem MsgAt.bitCells (h : MsgAt S s b (byteAt s a f p (.clockLow 0)) n 0) (hs : s.syncsOk)
    (hS : ∀ q, S (byteAt s a f p q)) (hpos : 1 ≤ s.build.tUnit) {j : Nat} (hj : j < 8)
    (hn : s.noReset (n + j * (1 + 2 * s.build.tUnit))) :
    MsgAt S s b (byteAt s a f p (.clockLow ⟨j, hj⟩)) (n + j * (1 + 2 * s.build.tUnit)) 0 := by
  induction j with
  | zero => simpa using h
  | succ j ih =>
    have hcycles : n + (j + 1) * (1 + 2 * s.build.tUnit) =
        n + j * (1 + 2 * s.build.tUnit) + 1 + s.build.tUnit + s.build.tUnit := by
      rw [Nat.succ_mul]; omega
    rw [hcycles] at hn ⊢
    have hcell := (ih (by omega) (noReset_mono hn (by omega))).bitCell hs hS hpos hn fun h7 => by
      have : j = 7 := congrArg Fin.val h7
      omega
    have hnext : afterCellPt ⟨j, by omega⟩ = .clockLow ⟨j + 1, hj⟩ := by
      rw [afterCellPt, if_pos (show j < 7 by omega)]
      congr 1
      apply Fin.ext
      rw [Fin.val_add_one_of_lt' (by simpa using hj)]
    rwa [hnext] at hcell

/-- The wait for the acknowledgement follows the eight bit cells, if `ai` is 1 in the last cycle of
the last one (R108, R111). The byte begins in cycle `n + 1`. -/
theorem MsgAt.ackWait (h : MsgAt S s b (byteAt s a f p (.clockLow 0)) (n + 1) 0) (hs : s.syncsOk)
    (hS : ∀ q, S (byteAt s a f p q)) (hpos : 1 ≤ s.build.tUnit)
    (hn : s.noReset (n + s.build.cells + 1)) (hai : s.aiAt (n + s.build.cells) = true) :
    MsgAt S s b (byteAt s a f p .ackWait) (n + s.build.cells + 1) 0 := by
  have hend : n + s.build.cells + 1 =
      n + 1 + 7 * (1 + 2 * s.build.tUnit) + 1 + s.build.tUnit + s.build.tUnit := by
    simp only [Build.cells]; omega
  have hlast : n + 1 + 7 * (1 + 2 * s.build.tUnit) + 1 + s.build.tUnit + (s.build.tUnit - 1) =
      n + s.build.cells := by simp only [Build.cells]; omega
  rw [hend] at hn ⊢
  exact (h.bitCells hs hS hpos (j := 7) (by omega) (noReset_mono hn (by omega))).bitCell hs hS hpos
    hn fun _ => by rw [hlast]; exact hai

/-- A byte that begins in cycle `n + 1` and is acknowledged in the `k`-th cycle of its wait (R111). -/
theorem MsgAt.acknowledged {k : Nat} (h : MsgAt S s b (byteAt s a f p (.clockLow 0)) (n + 1) 0)
    (hs : s.syncsOk) (hS : ∀ q, S (byteAt s a f p q)) (hpos : 1 ≤ s.build.tUnit) (hk : 1 ≤ k)
    (hlimit : k ≤ s.build.ackTimeout)
    (hn : s.noReset (n + 1 + (s.build.cells + k + s.build.tUnit)))
    (hcheck : s.aiAt (n + s.build.cells) = true)
    (hwait : ∀ i, 1 ≤ i → i < k → s.aiAt (n + s.build.cells + i) = true)
    (hack : s.aiAt (n + s.build.cells + k) = false) :
    MsgAt S s b (afterByteAt s a f p) (n + 1 + (s.build.cells + k + s.build.tUnit)) 0 := by
  obtain ⟨i, rfl⟩ := Nat.exists_eq_add_of_le' hk
  have hcycles : n + 1 + (s.build.cells + (i + 1) + s.build.tUnit) =
      n + s.build.cells + 1 + i + 1 + s.build.tUnit := by omega
  rw [hcycles] at hn ⊢
  have hlast : MsgAt S s b (byteAt s a f p .ackWait) (n + s.build.cells + 1 + i) i :=
    (h.ackWait hs hS hpos (noReset_mono hn (by omega)) hcheck).counts hs
      (noReset_mono hn (by omega)) (show i < s.build.ackTimeout by omega) (hS _) fun v _ e he => by
      rw [Nat.add_assoc _ 1 e]
      exact hwait (1 + e) (by omega) (by omega)
  have hpulse : MsgAt S s b (byteAt s a f p .ackPulse) (n + s.build.cells + 1 + i + 1) 0 := by
    refine hlast.leads hs (noReset_mono hn (by omega)) (hS _) fun u hu hr _ => ?_
    have hzero : u.ai = false := by
      rw [hu.ai_eq, Nat.add_assoc _ 1 i, Nat.add_comm 1 i]
      exact hack
    obtain ⟨-, -, -, -, -, -, -, hwait, -⟩ := attemptGoesThroughTheFrame.2 u .tx _ hr hu.point_eq
    refine ⟨congrArg (Option.map _) (if_neg ?_), _, _, hwait _ rfl hzero⟩
    rintro ⟨-, hone⟩
    rw [hzero] at hone
    cases hone
  refine hpulse.delays hs hn (hS _) rfl hpos (by simp [byteAt]) fun u hu hr hsends => ⟨rfl, ?_⟩
  obtain ⟨hcount, hbyte⟩ := hsends.frame
  obtain ⟨-, -, -, -, -, -, -, -, hend, -⟩ := attemptGoesThroughTheFrame.2 u .tx _ hr hu.point_eq
  obtain ⟨hnext, hstop⟩ := hend _ rfl (by rw [hu.cnt_eq, hu.build_eq]; omega)
  unfold afterByteAt
  split
  · rename_i hlt
    rw [byteAt, ← hbyte]
    exact ⟨_, _, hnext (hcount ▸ hlt)⟩
  · rename_i hge
    exact ⟨_, _, hstop (hcount ▸ not_lt.mp hge)⟩

/-- A byte that begins in cycle `n + 1` and is not acknowledged: its last cycle records the failure,
and the attempt goes on (R111, R112, R124). -/
theorem EntersAt.timesOut (h : EntersAt s (byteAt s a f p (.clockLow 0)) (n + 1)) (hs : s.syncsOk)
    (hpos : 1 ≤ s.build.tUnit) (hlimit : 1 ≤ s.build.ackTimeout)
    (hn : s.noReset (n + 1 + (s.build.cells + s.build.ackTimeout)))
    (hai : ∀ i, i ≤ s.build.ackTimeout → s.aiAt (n + s.build.cells + i) = true) :
    Throughout inSendMsg s (n + 1) (n + 1 + (s.build.cells + s.build.ackTimeout)) ∧
    ∃ z, run (n + 1 + (s.build.cells + s.build.ackTimeout)) s = .next z ∧
      z.point = .sendMsg (afterByteAt s a true p) ∧ z.cnt = 0 ∧ SendsFrom s z ∧
      z.diagLast = 0x31 ∧ z.diagPos = framePos p ∧ z.flag .txByteFail = true := by
  obtain ⟨l, hl⟩ := Nat.exists_eq_add_of_le' hlimit
  have hcycles : n + 1 + (s.build.cells + s.build.ackTimeout) = n + s.build.cells + 1 + l + 1 := by
    omega
  rw [hcycles] at hn ⊢
  obtain ⟨hspan, u, hu, hp, hc, hsends⟩ : MsgAt (fun _ => True) s (n + 1)
      (byteAt s a f p .ackWait) (n + s.build.cells + 1 + l) l :=
    (h.msgAt.ackWait hs (fun _ => trivial) hpos (noReset_mono hn (by omega))
      (hai 0 (Nat.zero_le _))).counts hs (noReset_mono hn (by omega))
      (show l < s.build.ackTimeout by omega) trivial fun v _ e he => by
        rw [Nat.add_assoc _ 1 e]
        exact hai (1 + e) (by omega)
  have hr := now_rst_of_run hn hu
  have hin := inCycle_of_run hs (noReset_mono hn (Nat.le_succ _)) hu
  have hone : u.ai = true := by
    rw [hin.ai_eq, Nat.add_assoc _ 1 l]
    exact hai (1 + l) (by omega)
  obtain ⟨z, hstep, hcnt, hfail, -, -, hnext, hstop⟩ := failedByteDoesNotEndTheAttempt u .tx _ _
    .ackWait hr hp rfl (.inr ⟨rfl, by rw [hc, hin.build_eq]; omega, hone⟩)
  rw [if_pos rfl] at hfail
  have hpoint : z.point = .sendMsg (afterByteAt s a true p) := by
    obtain ⟨hcount, hbyte⟩ := hsends.frame
    unfold afterByteAt
    split
    · rename_i hlt
      rw [byteAt, ← hbyte]
      exact (hnext (hcount ▸ hlt)).2
    · rename_i hge
      exact (hstop (hcount ▸ not_lt.mp hge)).2
  refine ⟨(hspan.mono fun _ => sendsQuietly.inSendMsg).succ hu (inSendMsg_of_point hp), z,
    (run_succ_of_run hu).trans hstep, hpoint, hcnt,
    hsends.step hr hstep (inSendMsg_of_point hpoint), hfail.1, hfail.2.1,
    failurePoint_flag hfail (by decide) (by decide)⟩

end Phases

end Sys2Proof.Proofs

/-! ## The attempts of a SEND_MSG (R124 to R128)

All bytes of an attempt meet the same here: they are acknowledged (`ok`), or they time out. -/

namespace Sys2Proof.Proofs
open Sys2Proof.Machine Sys2Proof.Laws

section Attempts
variable {s : State} {R : State → Prop} {a e n B : Nat} {ok : Bool}

/-- A byte of the attempt that begins in cycle `c` takes `B` cycles with the property `R`, and is
acknowledged if `ok`. -/
def byteTakes (R : State → Prop) (s : State) (a B : Nat) (ok : Bool) (p c : Nat) : Prop :=
  ∀ f, EntersAt s (byteAt s a f p (.clockLow 0)) c →
    Throughout R s c (c + B) ∧ EntersAt s (afterByteAt s a (f || !ok) p) (c + B)

/-- The bytes of the frame begin one after the other; the first begins in cycle `n + 1`. -/
theorem bytes_begin (hbyte : ∀ p, p < s.frameCount .tx → byteTakes R s a B ok p (n + p * B + 1))
    (h : EntersAt s (byteAt s a false 0 (.clockLow 0)) (n + 1)) (p : Nat)
    (hp : p < s.frameCount .tx) :
    EntersAt s (byteAt s a (decide (0 < p) && !ok) p (.clockLow 0)) (n + p * B + 1) ∧
      Throughout R s (n + 1) (n + p * B + 1) := by
  induction p with
  | zero => simpa using And.intro h (Throughout.nil (Q := R))
  | succ p ih =>
    obtain ⟨hat, hspan⟩ := ih (by omega)
    obtain ⟨hspan', hnext⟩ := hbyte p (by omega) _ hat
    have hcycles : n + (p + 1) * B + 1 = n + p * B + 1 + B := by rw [Nat.succ_mul]; omega
    rw [hcycles]
    rw [afterByteAt, if_pos hp] at hnext
    refine ⟨?_, hspan.trans hspan'⟩
    cases ok <;> simpa using hnext

/-- After the last byte the stop condition begins. -/
theorem bytes_end (hbyte : ∀ p, p < s.frameCount .tx → byteTakes R s a B ok p (n + p * B + 1))
    (h : EntersAt s (byteAt s a false 0 (.clockLow 0)) (n + 1)) :
    EntersAt s (stopAt a (!ok) (s.frameCount .tx - 1) .clock) (n + s.frameCount .tx * B + 1) ∧
      Throughout R s (n + 1) (n + s.frameCount .tx * B + 1) := by
  obtain ⟨p, hp⟩ := Nat.exists_eq_add_of_le' (frameCount_pos s .tx)
  obtain ⟨hat, hspan⟩ := bytes_begin hbyte h p (by omega)
  obtain ⟨hspan', hnext⟩ := hbyte p (by omega) _ hat
  have hcycles : n + s.frameCount .tx * B + 1 = n + p * B + 1 + B := by
    rw [hp, Nat.succ_mul]; omega
  rw [hcycles, show s.frameCount .tx - 1 = p by omega]
  rw [afterByteAt, if_neg (by omega)] at hnext
  refine ⟨?_, hspan.trans hspan'⟩
  cases ok <;> simpa using hnext

/-- How many cycles an attempt takes whose bytes take `B` cycles each (R127). -/
def attemptTime (s : State) (B : Nat) : Nat := 4 * s.build.tDelay + s.frameCount .tx * B

/-- The attempt `a`, from cycle `e + 1` to the last of its cycles; its bytes take `B` cycles each, with
the property `R`. -/
structure AttemptRuns (R : State → Prop) (s : State) (a e B : Nat) (ok : Bool) : Prop where
  start : Throughout (sendsQuietly (fun _ => True) s) s (e + 1) (e + 2 * s.build.tDelay + 1)
  byte_begins : ∀ p, p < s.frameCount .tx → ∃ f,
    EntersAt s (byteAt s a f p (.clockLow 0)) (e + 2 * s.build.tDelay + p * B + 1)
  bytes : Throughout R s (e + 2 * s.build.tDelay + 1)
    (e + 2 * s.build.tDelay + s.frameCount .tx * B + 1)
  stop : Throughout (sendsQuietly (fun _ => True) s) s
    (e + 2 * s.build.tDelay + s.frameCount .tx * B + 1) (e + attemptTime s B)
  last : ∃ u, run (e + attemptTime s B) s = .next u ∧
    u.point = .sendMsg (stopAt a (!ok) (s.frameCount .tx - 1) .data) ∧
    u.build.tDelay ≤ u.cnt + 1 ∧ SendsFrom s u

theorem EntersAt.attemptRuns (h : EntersAt s (startAt a .high) (e + 1)) (hs : s.syncsOk)
    (hpos : 1 ≤ s.build.tDelay) (hn : s.noReset (e + attemptTime s B))
    (hbyte : ∀ p, p < s.frameCount .tx →
      byteTakes R s a B ok p (e + 2 * s.build.tDelay + p * B + 1)) :
    AttemptRuns R s a e B ok := by
  obtain ⟨d, hd⟩ := Nat.exists_eq_add_of_le' hpos
  have hstart : MsgAt (fun _ => True) s (e + 1) (byteAt s a false 0 (.clockLow 0))
      (e + 2 * s.build.tDelay + 1) 0 := by
    have hcycles : e + 2 * s.build.tDelay + 1 = e + 1 + s.build.tDelay + s.build.tDelay := by omega
    rw [hcycles]
    exact h.msgAt.startCondition hs (fun _ => trivial) hpos
      (noReset_mono hn (by have := frameCount_pos s .tx; unfold attemptTime; omega))
  obtain ⟨hstop, hspan⟩ := bytes_end hbyte hstart.here
  have hcycles : e + attemptTime s B =
      e + 2 * s.build.tDelay + s.frameCount .tx * B + 1 + (d + 1) + d := by
    unfold attemptTime; omega
  have hend := hstop.msgAt.stopCondition (S := fun _ => True) hs (fun _ => trivial) hd (hcycles ▸ hn)
  rw [← hcycles] at hend
  obtain ⟨hquiet, u, hu, hp, hc, hsends⟩ := hend
  exact ⟨hstart.span, fun p hp => ⟨_, (bytes_begin hbyte hstart.here p hp).1⟩, hspan, hquiet,
    u, hu, hp, by rw [hc, (run_environment hn hu).1]; omega, hsends⟩

/-- All cycles of the attempt but its last. -/
theorem AttemptRuns.span {Q : State → Prop} (h : AttemptRuns R s a e B ok) (hR : ∀ x, R x → Q x)
    (hQ : ∀ x, sendsQuietly (fun _ => True) s x → Q x) :
    Throughout Q s (e + 1) (e + attemptTime s B) :=
  ((h.start.mono hQ).trans (h.bytes.mono hR)).trans (h.stop.mono hQ)

end Attempts

/-! ### The end of a SEND_MSG (R128) -/

/-- A cycle of SEND_MSG leaves ACK_OUT alone (R110). -/
theorem inSendMsg.ackOut {x y : State} (h : inSendMsg x) (hr : x.now.rst = false)
    (hstep : step x = .next y) : y.ackOut = x.ackOut := by
  have hf := fetch_of_instr h
  rw [step_of_fetch hr hf] at hstep
  rw [exec_sendMsg_frame hf hstep]
  exact edge_ackOut x

/-- The last cycle of the SEND_MSG dispatched in `s`, from `u` to `v`, with the locals `m` of its last
attempt. -/
structure EndsSendMsg (s : State) (m : MsgSendAct) (u v : State) : Prop where
  step_eq : step u = .next v
  quiet : noFailurePoint u v
  idle : v.point = .idle
  clkOut_eq : v.clkOut = true
  datOut_eq : v.datOut = true
  ackOut_eq : v.ackOut = s.ackOut
  txAct_eq : v.txAct = false
  cmdAct_eq : v.cmdAct = false
  cmdResult_eq : v.cmdResult = zext8 m.fail
  lastAttempts_eq : v.lastAttempts = BitVec.ofNat 8 m.attempt
  endEvent_set : v.flag m.endEvent = true
  cmdDone_set : v.flag .cmdDone = true

theorem endsSendMsg_of_stop {s u : State} {m : MsgSendAct} {n : Nat} (hstarts : s.starts .sendMsg)
    (hn : s.noReset (n + 1)) (hn1 : 1 ≤ n) (hspan : Throughout inSendMsg s 1 n)
    (hu : run n s = .next u) (hp : u.point = .sendMsg m) (hm : m.pt = .stop .data)
    (hcnt : u.build.tDelay ≤ u.cnt + 1) (hend : m.fail = false ∨ m.attempt = u.build.retryMax) :
    ∃ v, EndsSendMsg s m u v := by
  have hr := now_rst_of_run hn hu
  have hstep := step_of_sendMsg_end hr hp hm hcnt hend
  have hquiet := eachFailureIsRecordedWhereItOccurs u _ hr hstep
  have hnone : u.point.failure u = none := by rw [hp]; exact failure_of_stop (f := .tx) hm
  rw [hnone] at hquiet
  have hlines := run_linesOk (linesOk_of_idle hstarts.2.1) hu
  rw [State.linesOk, hp] at hlines
  simp only [hm] at hlines
  obtain ⟨hclk, hdat⟩ : u.clkOut = true ∧ u.datOut = true := hlines
  have hack : u.ackOut = s.ackOut := hspan.carries (R := fun x => x.ackOut = s.ackOut)
    (noReset_mono hn (Nat.le_succ n)) hn1
    (fun _ _ _ _ _ _ hr hstep hq hR => (hq.ackOut hr hstep).trans hR)
    (run_succ_of_step (step_of_starts hstarts)) (edge_ackOut s) hu
  have hsets := endSendMsg_sets u.edge m (!m.fail)
  exact ⟨_, hstep, hquiet, rfl, (edge_clkOut u).trans hclk, (edge_datOut u).trans hdat,
    (edge_ackOut u).trans hack, rfl, rfl, congrArg zext8 (Bool.not_not m.fail), rfl,
    flag_of_sets hsets (by simp), flag_of_sets hsets (by simp)⟩

/-- The cycle after the dispatch of a SEND_MSG begins its first attempt (R124, R128). -/
theorem entersAt_of_starts {s : State} (hstarts : s.starts .sendMsg) :
    EntersAt s (startAt 1 .high) 1 :=
  ⟨_, run_succ_of_step (step_of_starts hstarts), rfl, rfl,
    sendsFrom_of_starts hstarts (exec_of_starts hstarts)⟩

/-! ### Every byte acknowledged (R127, R128) -/

/-- A point at the byte of frame position `p`. -/
def isByte (p : Nat) (m : MsgSendAct) : Prop := m.p = p ∧ ∃ b, m.pt = .byte b

/-- The byte that is being sent at frame position `p` is the TX message's as it stood at the dispatch
(R123). -/
theorem sendsQuietly.sending {s x : State} {p : Nat} (h : sendsQuietly (isByte p) s x) :
    ∃ q, x.point.sending? = some ⟨wireByte s.txLen s.txDest s.build.nodeId
      (fun j => s.readReg (.txBuf j)) p, q⟩ := by
  obtain ⟨⟨hsame, m', hp', hsrc, hbyte⟩, m, hp, ⟨rfl, ⟨v, q⟩, hpt⟩, -⟩ := h
  obtain rfl : m' = m := Point.sendMsg.inj (hp'.symm.trans hp)
  have hv := hbyte _ hpt
  rw [hsrc, hsame.frameByte, frameByte_tx] at hv
  obtain ⟨src, attempt, fail, p, pt⟩ := m'
  cases hpt
  rw [hp, ← hv]
  exact ⟨q, rfl⟩

/-- Settles O31: every byte takes the same time in the only attempt, and no cycle meets a failure. -/
theorem sendMsgAcknowledged : Obligations.SendMsgAcknowledged := by
  intro s k hstarts hs hunit hdelay hk hlimit c byteTime bytes n hn hlevels
  have hn' : s.noReset (n + 1) := by rwa [Nat.add_comm]
  have hcycles : 0 + attemptTime s byteTime = n := Nat.zero_add _
  have hzero (x : Nat) : 0 + x = x := Nat.zero_add x
  have hlast (p : Nat) (hp : p < bytes) : p * byteTime + byteTime ≤ bytes * byteTime := by
    rw [← Nat.succ_mul]; exact Nat.mul_le_mul_right _ hp
  have hacked (p : Nat) (hp : p < bytes) (f : Bool)
      (hat : EntersAt s (byteAt s 1 f p (.clockLow 0)) (2 * s.build.tDelay + p * byteTime + 1)) :
      MsgAt (isByte p) s (2 * s.build.tDelay + p * byteTime + 1) (afterByteAt s 1 f p)
        (2 * s.build.tDelay + p * byteTime + 1 + byteTime) 0 := by
    obtain ⟨hcheck, hwait, hack⟩ := hlevels p hp
    exact hat.msgAt.acknowledged hs (fun _ => ⟨rfl, _, rfl⟩) hunit hk hlimit
      (noReset_mono hn' (by have := hlast p hp; simp only [n]; omega)) hcheck hwait hack
  have hattempt : AttemptRuns (sendsQuietly (fun _ => True) s) s 1 0 byteTime true := by
    refine (entersAt_of_starts hstarts).attemptRuns hs hdelay
      (hcycles ▸ noReset_mono hn' (Nat.le_succ n)) fun p hp f hat => ?_
    rw [hzero] at hat ⊢
    obtain ⟨hspan, hnext⟩ := hacked p hp f hat
    refine ⟨hspan.mono fun x hx => hx.mono fun _ _ => trivial, ?_⟩
    rw [Bool.not_true, Bool.or_false]
    exact hnext
  have hspan := hattempt.span (fun _ h => h) (fun _ h => h)
  obtain ⟨u, hu, hp, hcnt, hsends⟩ := hattempt.last
  rw [hcycles] at hspan hu
  have hquiet := hspan.succ hu ⟨hsends, _, hp, trivial, rfl⟩
  obtain ⟨v, hv⟩ := endsSendMsg_of_stop hstarts hn' (by simp only [n]; omega)
    (hspan.mono fun _ => sendsQuietly.inSendMsg) hu hp rfl hcnt (.inl rfl)
  have hstart := step_of_starts hstarts
  have hdiag : u.diagLast = s.diagLast ∧ u.diagPos = s.diagPos :=
    hspan.carries (R := fun x => x.diagLast = s.diagLast ∧ x.diagPos = s.diagPos)
      (noReset_mono hn' (Nat.le_succ n)) (by simp only [n]; omega)
      (fun _ x y _ _ _ hr hstep hq hR => by
        obtain ⟨y', hstep', hlast, hpos, -⟩ := hq.step hr
        cases hstep.symm.trans hstep'
        exact ⟨hlast.trans hR.1, hpos.trans hR.2⟩)
      (run_succ_of_step hstart)
      ⟨(noFailurePoint_of_starts hstarts).1, (noFailurePoint_of_starts hstarts).2.1⟩ hu
  refine ⟨_, exec_of_starts hstarts, rfl, rfl, noFailurePoint_of_starts hstarts, fun m hm => ?each,
    fun p i hp hi => ?bytes, v, (run_succ_of_step hstart).symm.trans ((run_succ_of_run hu).trans
    hv.step_eq), hv.idle, hv.clkOut_eq, hv.datOut_eq, hv.ackOut_eq, hv.txAct_eq, hv.cmdAct_eq,
    hv.cmdResult_eq, hv.lastAttempts_eq, hv.endEvent_set, hv.cmdDone_set,
    hv.quiet.1.trans hdiag.1, hv.quiet.2.1.trans hdiag.2⟩
  case each =>
    obtain ⟨x, hx, hq⟩ := hquiet (m + 1) (by omega) (by omega)
    obtain ⟨y, hxy, hxyq⟩ := hq.step (now_rst_of_run (noReset_mono hn' (by omega)) hx)
    rw [run_succ_of_step hstart] at hx
    exact ⟨x, y, hx, hxy, hq.inSendMsg, hxyq⟩
  case bytes =>
    obtain ⟨f, hat⟩ := hattempt.byte_begins p hp
    rw [hzero] at hat
    obtain ⟨x, hx, hq⟩ := (hacked p hp f hat).span (2 * s.build.tDelay + p * byteTime + i + 1)
      (by omega) (by omega)
    obtain ⟨q, hsending⟩ := hq.sending
    rw [run_succ_of_step hstart] at hx
    exact ⟨x, q, hx, hsending⟩

/-! ### No byte acknowledged (R125, R126, R128) -/

/-- What the environment drives in a cycle of a run, if no input of a stretch of the list has it and
an undriven cycle does not either. -/
theorem now_of_span {P : Input → Prop} {s u : State} {b l n : Nat} (hP : P Input.undriven)
    (h : ∀ x ∈ (s.inputs.drop b).take l, P x) (hn : s.noReset n) (hu : run n s = .next u)
    (hb : b ≤ n) (hl : n < b + l) : P u.now := by
  rw [now_of_run hn hu, List.getD_eq_getElem?_getD]
  cases hx : s.inputs[n]? with
  | none => exact hP
  | some x =>
    refine h x (List.mem_of_getElem? (i := n - b) ?_)
    rw [List.getElem?_take_of_lt (by omega), List.getElem?_drop, Nat.add_sub_cancel' hb, hx]

/-- Without a host write the clock edge leaves the flags and CONFIG alone (R35, R58). -/
theorem edge_of_no_write {s : State} (h : (s.now.hSel && s.now.hWe) = false) :
    (∀ e, s.edge.flag e = s.flag e) ∧ s.edge.config = s.config := by
  rw [edge_eq, hostAccess_of_no_write s h]
  exact ⟨fun _ => rfl, rfl⟩

/-- The flag of a failed byte stays in a cycle without a failure point and without a host write. -/
theorem txByteFail_kept {x y : State} (h : noFailurePoint x y)
    (hwrite : (x.now.hSel && x.now.hWe) = false) (hx : x.flag .txByteFail = true) :
    y.flag .txByteFail = true := by
  obtain ⟨-, -, -, hsets⟩ := h
  rw [hsets .txByteFail (by decide), (edge_of_no_write hwrite).1, hx]
  rfl

/-- The timed statements of an admitted build (R7). -/
theorem timing_pos {b : Build} (h : b.wf = true) : 1 ≤ b.ackTimeout ∧ 1 ≤ b.edgeTimeout ∧
    1 ≤ b.tDelay ∧ 1 ≤ b.tUnit ∧ 1 ≤ b.tSettle := by
  simp only [Build.wf, Bool.and_eq_true, decide_eq_true_eq] at h
  obtain ⟨⟨⟨⟨⟨⟨⟨⟨⟨-, -⟩, -⟩, -⟩, hack⟩, hedge⟩, hdelay⟩, hunit⟩, hsettle⟩, -⟩ := h
  exact ⟨hack, hedge, hdelay, hunit, hsettle⟩

section Abandoned
variable {s : State} {a e i : Nat}

/-- How many cycles an attempt takes of which no byte is acknowledged (R126). -/
def failedTime (s : State) : Nat := attemptTime s (s.build.cells + s.build.ackTimeout)

/-- Such an attempt, and what its last failure point leaves when the stop condition begins. -/
theorem EntersAt.failedAttempt (h : EntersAt s (startAt a .high) (e + 1)) (hs : s.syncsOk)
    (hwf : s.build.wf = true) (hn : s.noReset (e + failedTime s))
    (hai : ∀ i, i ≤ e + failedTime s → s.aiAt i = true) :
    AttemptRuns inSendMsg s a e (s.build.cells + s.build.ackTimeout) false ∧
    ∃ z, run (e + 2 * s.build.tDelay +
        s.frameCount .tx * (s.build.cells + s.build.ackTimeout) + 1) s = .next z ∧
      z.diagLast = 0x31 ∧ z.diagPos = framePos (s.frameCount .tx - 1) ∧
      z.flag .txByteFail = true := by
  obtain ⟨hack, -, hdelay, hunit, -⟩ := timing_pos hwf
  set B := s.build.cells + s.build.ackTimeout
  have htime : failedTime s = 4 * s.build.tDelay + s.frameCount .tx * B := rfl
  have hfits (p : Nat) (hp : p < s.frameCount .tx) : p * B + B ≤ s.frameCount .tx * B := by
    rw [← Nat.succ_mul]; exact Nat.mul_le_mul_right _ hp
  have hbyte (p : Nat) (hp : p < s.frameCount .tx) (f : Bool)
      (hat : EntersAt s (byteAt s a f p (.clockLow 0)) (e + 2 * s.build.tDelay + p * B + 1)) :=
    have := hfits p hp
    hat.timesOut hs hunit hack (noReset_mono hn (by omega)) fun i hi => hai _ (by omega)
  have hattempt : AttemptRuns inSendMsg s a e B false := h.attemptRuns hs hdelay hn fun p hp f hat =>
    have ⟨hspan, z, hz, hpoint, hcnt, hsends, _⟩ := hbyte p hp f hat
    ⟨hspan, z, hz, by simpa using hpoint, hcnt, hsends⟩
  have hlast : s.frameCount .tx - 1 + 1 = s.frameCount .tx :=
    Nat.sub_add_cancel (frameCount_pos s .tx)
  obtain ⟨f, hat⟩ := hattempt.byte_begins (s.frameCount .tx - 1) (by omega)
  obtain ⟨-, z, hz, -, -, -, hdiag⟩ := hbyte _ (by omega) f hat
  have hcycles : (s.frameCount .tx - 1) * B + B = s.frameCount .tx * B := by
    rw [← Nat.succ_mul, Nat.succ_eq_add_one, hlast]
  refine ⟨hattempt, z, ?_, hdiag⟩
  rw [← hz]
  congr 1
  omega

/-- The next attempt follows a failed one below `RETRY_MAX` (R125). -/
theorem AttemptRuns.retried {B : Nat} (h : AttemptRuns inSendMsg s a e B false)
    (ha : a ≠ s.build.retryMax) (hn : s.noReset (e + attemptTime s B + 1)) :
    EntersAt s (startAt (a + 1) .high) (e + attemptTime s B + 1) := by
  obtain ⟨u, hu, hp, hcnt, hsends⟩ := h.last
  have hr := now_rst_of_run hn hu
  have hbuild := (run_environment (noReset_mono hn (Nat.le_succ _)) hu).1
  obtain ⟨t, hstep, -, -, -, hnext⟩ := attemptEndsOrIsRetried u .tx _ hr hp rfl hcnt
  obtain ⟨hp', hc', -⟩ := hnext rfl (by rw [hbuild]; exact ha)
  exact ⟨t, (run_succ_of_run hu).trans hstep, hp', hc',
    hsends.step hr hstep (inSendMsg_of_point hp')⟩

/-- All cycles of a failed attempt, its last one too. -/
theorem AttemptRuns.all_cycles {B : Nat} {ok : Bool} (h : AttemptRuns inSendMsg s a e B ok) :
    Throughout inSendMsg s (e + 1) (e + attemptTime s B + 1) := by
  obtain ⟨u, hu, hp, -⟩ := h.last
  exact (h.span (fun _ h => h) fun _ => sendsQuietly.inSendMsg).succ hu (inSendMsg_of_point hp)

/-- Without an acknowledgement attempt `i + 1` begins when `i` attempts' time is over (R126). -/
theorem attempt_begins (hstarts : s.starts .sendMsg) (hs : s.syncsOk) (hwf : s.build.wf = true)
    (hn : s.noReset (s.build.retryMax * failedTime s))
    (hai : ∀ i, i ≤ s.build.retryMax * failedTime s → s.aiAt i = true)
    (hi : i < s.build.retryMax) : EntersAt s (startAt (i + 1) .high) (i * failedTime s + 1) ∧
      Throughout inSendMsg s 1 (i * failedTime s + 1) := by
  induction i with
  | zero => simpa using And.intro (entersAt_of_starts hstarts) (Throughout.nil (Q := inSendMsg))
  | succ i ih =>
    obtain ⟨hat, hspan⟩ := ih (by omega)
    have hcycles : (i + 1) * failedTime s = i * failedTime s + failedTime s := Nat.succ_mul i _
    have hle : (i + 1) * failedTime s + failedTime s ≤ s.build.retryMax * failedTime s := by
      rw [← Nat.succ_mul]; exact Nat.mul_le_mul_right _ hi
    have htime : 4 * s.build.tDelay ≤ failedTime s := Nat.le_add_right _ _
    obtain ⟨-, -, hdelay, -⟩ := timing_pos hwf
    obtain ⟨hattempt, -⟩ := hat.failedAttempt hs hwf (noReset_mono hn (by omega))
      fun j hj => hai j (by omega)
    rw [hcycles]
    exact ⟨hattempt.retried (by omega) (noReset_mono hn (by
      rw [← failedTime]; omega)), hspan.trans hattempt.all_cycles⟩

/-- Settles O32: the last attempt ends the SEND_MSG, and what its last byte recorded stands. -/
theorem sendMsgAbandoned : Obligations.SendMsgAbandoned := by
  intro s hstarts hs hwf bytes n hn hai
  have hn' : s.noReset (n + 1) := by rwa [Nat.add_comm]
  have hn0 : s.noReset n := noReset_mono hn' (Nat.le_succ n)
  obtain ⟨i, hmax⟩ := Nat.exists_eq_add_of_le' (retryMax_pos hwf)
  have hcycles : i * failedTime s + failedTime s = n := by
    rw [← Nat.succ_mul, Nat.succ_eq_add_one, ← hmax]; rfl
  have htime : failedTime s = 4 * s.build.tDelay +
    s.frameCount .tx * (s.build.cells + s.build.ackTimeout) := rfl
  obtain ⟨-, -, hdelay, -⟩ := timing_pos hwf
  obtain ⟨hat, hbefore⟩ := attempt_begins hstarts hs hwf hn0 hai (i := i) (by omega)
  obtain ⟨hattempt, z, hz, hzdiag, hzpos, hzflag⟩ := hat.failedAttempt hs hwf (hcycles ▸ hn0)
    (hcycles ▸ hai)
  have hall := hbefore.trans hattempt.all_cycles
  have hspan := hbefore.trans (hattempt.span (fun _ h => h) fun _ => sendsQuietly.inSendMsg)
  obtain ⟨u, hu, hp, hcnt, -⟩ := hattempt.last
  have hquiet := hattempt.stop
  rw [← failedTime, hcycles] at hall hspan hu hquiet
  have hstop : i * failedTime s + 2 * s.build.tDelay +
      s.frameCount .tx * (s.build.cells + s.build.ackTimeout) + 1 = 1 + (n - 2 * s.build.tDelay) := by
    omega
  rw [hstop] at hz hquiet
  have hbuild := (run_environment hn0 hu).1
  obtain ⟨v, hv⟩ := endsSendMsg_of_stop hstarts hn' (by omega) hspan hu hp rfl hcnt
    (.inr (by rw [hbuild, hmax]; rfl))
  obtain ⟨hdiag, hpos⟩ : u.diagLast = 0x31 ∧ u.diagPos = framePos (s.frameCount .tx - 1) :=
    hquiet.carries (R := fun x => x.diagLast = 0x31 ∧ x.diagPos = framePos (s.frameCount .tx - 1))
      hn0 (by omega) (fun _ x y _ _ _ hr hstep hq hR => by
        obtain ⟨y', hstep', hlast, hpos, -⟩ := hq.step hr
        cases hstep.symm.trans hstep'
        exact ⟨hlast.trans hR.1, hpos.trans hR.2⟩) hz ⟨hzdiag, hzpos⟩ hu
  have hstart := step_of_starts hstarts
  refine ⟨_, exec_of_starts hstarts, rfl, rfl, hall.after_start hstart, v,
    (run_succ_of_step hstart).symm.trans ((run_succ_of_run hu).trans hv.step_eq), hv.idle,
    hv.clkOut_eq, hv.datOut_eq, hv.ackOut_eq, hv.txAct_eq, hv.cmdAct_eq, hv.cmdResult_eq,
    hmax ▸ hv.lastAttempts_eq, hv.endEvent_set, hv.cmdDone_set, hv.quiet.1.trans hdiag,
    hv.quiet.2.1.trans hpos, fun hwrites => ?_⟩
  have hnow (k : Nat) (x : State) (hb : 1 + (n - 2 * s.build.tDelay) ≤ k) (hk : k ≤ n)
      (hx : run k s = .next x) : (x.now.hSel && x.now.hWe) = false :=
    now_of_span (P := fun i => (i.hSel && i.hWe) = false) rfl hwrites (noReset_mono hn0 hk) hx hb
      (by omega)
  have huflag : u.flag .txByteFail = true :=
    hquiet.carries (R := fun x => x.flag .txByteFail = true) hn0 (by omega)
      (fun k x y hb hk hx hr hstep hq hR => by
        obtain ⟨y', hstep', hxy⟩ := hq.step hr
        cases hstep.symm.trans hstep'
        exact txByteFail_kept hxy (hnow k x hb hk.le hx) hR) hz hzflag hu
  exact txByteFail_kept hv.quiet (hnow n u (by omega) le_rfl hu) huflag

end Abandoned

end Sys2Proof.Proofs

/-! ## The bytes of a reception on the level histories (R114, R129, R131)

Each `RecvByte` of a reception goes through the waits of its pseudocode and hands over its
accumulator, timed out or complete; nothing else of FRAME changes meanwhile. -/

namespace Sys2Proof.Proofs
open Sys2Proof.Machine Sys2Proof.Laws

/-! ### The control points of a byte -/

/-- A cycle of a reception in which no relay sends. -/
def receives (x : State) : Prop := x.point.inReceive = true ∧ x.point.inSend = false

theorem receives_of_byte {x : State} {q : MsgReceivePt} {a : RecvByteAct} {pos : Nat}
    (hp : x.point = .receive q) (hq : q.byte? = some (a, pos)) : receives x := by
  rw [receives, hp]
  cases q <;> cases hq <;> exact ⟨rfl, rfl⟩

theorem byte_atByte {q : MsgReceivePt} {a : RecvByteAct} {pos : Nat} (hq : q.byte? = some (a, pos))
    (a' : RecvByteAct) : (atByte q a').byte? = some (a', pos) := by
  cases q <;> cases hq <;> rfl

theorem atByte_of_byte {q : MsgReceivePt} {a : RecvByteAct} {pos : Nat}
    (hq : q.byte? = some (a, pos)) : atByte q a = q := by
  cases q <;> cases hq <;> rfl

theorem atByte_atByte (q : MsgReceivePt) (a a' : RecvByteAct) :
    atByte (atByte q a) a' = atByte q a' := by
  cases q <;> rfl

/-- What follows a byte does not depend on where its `RecvByte` ended. -/
theorem afterReception_atByte (t w : State) (q : MsgReceivePt) (a : RecvByteAct) (v : Byte) :
    afterReception t (atByte q a) v w = afterReception t q v w := by
  cases q <;> rfl

/-- A cycle of a byte of a reception is one of its `RecvByte`. -/
theorem resume_of_byte {x : State} {q : MsgReceivePt} {a a' : RecvByteAct} {pos : Nat}
    (hp : x.point = .receive (atByte q a')) (hq : q.byte? = some (a, pos)) (w : State) :
    x.resume w = x.goRecvByte w a' (.frame pos) (fun a => .receive (atByte q a))
      fun v _ w => afterReception x q v w := by
  simp only [State.resume, hp]
  rw [goMsgReceive_of_byte x w (byte_atByte hq a')]
  simp only [atByte_atByte, afterReception_atByte]

/-! ### The waits of a byte -/

/-- In cycle `n` the byte at `q` that a reception began in `u` is at its wait `a`, with the counter at
`c`; all since cycle `b` are cycles of the reception, and FRAME stands as in `u`. -/
structure WaitsAt (s u : State) (q : MsgReceivePt) (b : Nat) (a : RecvByteAct) (n c : Nat) :
    Prop where
  span : Throughout receives s b n
  here : ∃ x, run n s = .next x ∧ x.point = .receive (atByte q a) ∧ x.cnt = c ∧ SameSources u x

section Waits
variable {s u : State} {q : MsgReceivePt} {a₀ a a' : RecvByteAct} {pos b n c : Nat}

/-- A cycle that stays in the byte. -/
theorem WaitsAt.step {c' : Nat} (h : WaitsAt s u q b a n c) (hq : q.byte? = some (a₀, pos))
    (hs : s.syncsOk) (hn : s.noReset (n + 1))
    (hgo : ∀ x, InCycle s (.receive (atByte q a)) n c x →
      (x.resume x.edge).point = .receive (atByte q a') ∧ (x.resume x.edge).cnt = c' ∧
        SameSources x.edge (x.resume x.edge)) : WaitsAt s u q b a' (n + 1) c' := by
  obtain ⟨hspan, x, hx, hp, hc, hsame⟩ := h
  have hin := inCycle_of_run hs (noReset_mono hn (Nat.le_succ n)) hx
  rw [hp, hc] at hin
  obtain ⟨hp', hc', hsame'⟩ := hgo x hin
  have hne : x.point ≠ .idle := by rw [hp]; nofun
  exact ⟨hspan.succ hx (receives_of_byte hp (byte_atByte hq a)), _,
    (run_succ_of_run hx).trans (step_of_running (now_rst_of_run hn hx) hne), hp', hc',
    hsame.trans ((sameSources_edge (busy_of_point hne)).trans hsame')⟩

/-- A wait whose condition does not hold counts up to its last cycle. -/
theorem WaitsAt.counts {m : Nat} (h : WaitsAt s u q b a n 0) (hq : q.byte? = some (a₀, pos))
    (hs : s.syncsOk) (hn : s.noReset (n + m)) (hlt : m < s.build.edgeTimeout)
    (hunmet : ∀ k, k < m → a.pt.met (s.ciAt (n + k)) = false) : WaitsAt s u q b a (n + m) m := by
  induction m with
  | zero => exact h
  | succ m ih =>
    have hat := ih (noReset_mono hn (by omega)) (by omega) fun k hk => hunmet k (by omega)
    refine hat.step hq hs hn fun x hx => ?_
    have hcnt : x.cnt + 1 < x.build.edgeTimeout := by rw [hx.cnt_eq, hx.build_eq]; exact hlt
    have hgo : x.resume x.edge = x.tick x.edge := by
      rw [resume_of_byte hx.point_eq hq, State.goRecvByte, State.wait, hx.ci_eq,
        hunmet m (Nat.lt_succ_self m), if_neg (by simp), if_pos hcnt]
    rw [hgo]
    exact ⟨(edge_point x).trans hx.point_eq, congrArg (· + 1) hx.cnt_eq,
      ⟨rfl, rfl, rfl, rfl, rfl, rfl, rfl, rfl, rfl⟩⟩

/-- The cycle in which a wait is satisfied: the next one begins. -/
theorem WaitsAt.next (h : WaitsAt s u q b a n c) (hq : q.byte? = some (a₀, pos)) (hs : s.syncsOk)
    (hn : s.noReset (n + 1)) (hmet : a.pt.met (s.ciAt n) = true)
    (ha : afterWait a (s.diAt n) = some a') : WaitsAt s u q b a' (n + 1) 0 := by
  refine h.step hq hs hn fun x hx => ?_
  rw [← hx.ci_eq] at hmet
  rw [resume_of_byte hx.point_eq hq, State.goRecvByte, wait_of_met _ _ _ _ hmet]
  rw [← hx.di_eq] at ha
  obtain ⟨acc, pt⟩ := a
  cases pt <;> cases ha <;> exact ⟨rfl, rfl, ⟨rfl, rfl, rfl, rfl, rfl, rfl, rfl, rfl, rfl⟩⟩

/-- A wait begun in cycle `n` is still on in the cycle in which it is satisfied. -/
theorem WaitsAt.satisfied {n' : Nat} (h : WaitsAt s u q b a n 0) (hq : q.byte? = some (a₀, pos))
    (hs : s.syncsOk) (hn : s.noReset n')
    (hw : waitFrom (fun t => a.pt.met (s.ciAt t)) n s.build.edgeTimeout = some n') :
    WaitsAt s u q b a n' (n' - n) ∧ a.pt.met (s.ciAt n') = true := by
  obtain ⟨hle, hlt, hmet, hbefore⟩ := waitFrom_eq_some_iff.mp hw
  obtain ⟨m, rfl⟩ := Nat.exists_eq_add_of_le hle
  have hat := h.counts hq hs hn (by omega) fun k hk => hbefore (n + k) (by omega) (by omega)
  exact ⟨by rwa [Nat.add_sub_cancel_left], hmet⟩

/-- In `x` the `RecvByte` at the wait `pt` returns, with a timeout or complete. -/
def returnsAt (x : State) (pt : RecvBytePt) : Prop :=
  pt.failure x ≠ none ∨ (pt = .ackFall ∧ x.ci = false)

/-- A byte that is at the first of the waits of the pseudocode comes to its end. -/
theorem WaitsAt.ends {r : RecvResult} (hq : q.byte? = some (a₀, pos)) (hs : s.syncsOk)
    (hlimit : 1 ≤ s.build.edgeTimeout)
    (hp : Pseudocode s.build.edgeTimeout s.ciAt s.diAt a n r) (h : WaitsAt s u q b a n 0)
    (hn : s.noReset r.last) :
    ∃ pt c x, WaitsAt s u q b ⟨r.acc, pt⟩ r.last c ∧ run r.last s = .next x ∧
      returnsAt x pt := by
  induction hp with
  | @timeout a n last hw hlast =>
    rw [waitFrom_eq_none_iff] at hw
    obtain ⟨m, rfl⟩ : ∃ m, last = n + m := Nat.exists_eq_add_of_le (by omega)
    have hat := h.counts hq hs hn (by omega) fun k hk => hw (n + k) (by omega) (by omega)
    obtain ⟨x, hx, -, hc, -⟩ := hat.here
    have hin := inCycle_of_run hs hn hx
    refine ⟨a.pt, m, x, hat, hx, .inl ?_⟩
    rw [recvByte_failure_eq, if_pos]
    · simp
    · rw [hc, hin.build_eq, hin.ci_eq]
      exact ⟨by omega, hw (n + m) (by omega) (by omega)⟩
  | next hw ha hr ih =>
    have hle := hr.le_last hlimit
    obtain ⟨hat, hmet⟩ := h.satisfied hq hs (noReset_mono hn (by omega)) hw
    exact ih (hat.next hq hs (noReset_mono hn hle) hmet ha) hn
  | @done a n n' hw ha =>
    obtain ⟨hat, hmet⟩ := h.satisfied hq hs hn hw
    obtain ⟨x, hx, -⟩ := hat.here
    obtain ⟨acc, pt⟩ := a
    cases ha
    refine ⟨.ackFall, _, x, hat, hx, .inr ⟨rfl, ?_⟩⟩
    rw [(inCycle_of_run hs hn hx).ci_eq]
    simpa [RecvBytePt.met] using hmet

end Waits

/-! ### One byte, and several -/

/-- The byte at `q` is received from cycle `b` on; its `RecvByte` returns `v` in cycle `e`, from the
state `x`, and `w` is the state after that cycle's edge, to which the reception's own writes are
added. -/
structure ByteReceived (s u : State) (q : MsgReceivePt) (b : Nat) (v : Byte) (e : Nat)
    (x w : State) : Prop where
  le : b ≤ e
  span : Throughout receives s b (e + 1)
  last : run e s = .next x
  at_byte : ∃ a, x.point = .receive (atByte q a)
  run_eq : run (e + 1) s = .next (afterReception x q v w)
  same : SameSources u w

theorem byteReceived {s u : State} {q : MsgReceivePt} {pos b : Nat} (hs : s.syncsOk)
    (hlimit : 1 ≤ s.build.edgeTimeout) (hu : run b s = .next u) (hp : u.point = .receive q)
    (hcnt : u.cnt = 0) (hq : q.byte? = some (firstWait, pos))
    (hn : s.noReset ((recvByteFrom s.build.edgeTimeout s.ciAt s.diAt b).last + 1)) :
    ∃ x w, ByteReceived s u q b (recvByteFrom s.build.edgeTimeout s.ciAt s.diAt b).acc
      (recvByteFrom s.build.edgeTimeout s.ciAt s.diAt b).last x w := by
  have hpseudo : Pseudocode s.build.edgeTimeout s.ciAt s.diAt firstWait b
      (recvByteFrom s.build.edgeTimeout s.ciAt s.diAt b) := pseudocode_recvFrom hlimit le_rfl 0 b
  generalize recvByteFrom s.build.edgeTimeout s.ciAt s.diAt b = r at hn hpseudo ⊢
  have hbegin : WaitsAt s u q b firstWait b 0 :=
    ⟨.nil, u, hu, by rw [atByte_of_byte hq, hp], hcnt, ⟨rfl, rfl, rfl, rfl, rfl, rfl, rfl, rfl, rfl⟩⟩
  obtain ⟨pt, c, x, ⟨hspan, x', hx', hpx, -, hsame⟩, hx, hret⟩ :=
    hbegin.ends hq hs hlimit hpseudo (noReset_mono hn (Nat.le_succ _))
  obtain rfl : x' = x := by injection hx'.symm.trans hx
  have hne : x'.point ≠ .idle := by rw [hpx]; nofun
  obtain ⟨ok, e0, e1, last, p, count, ack, hgo⟩ := goRecvByte_returns (a := ⟨r.acc, pt⟩) hret x'.edge
    (.frame pos) (fun a => .receive (atByte q a)) (fun v _ w => afterReception x' q v w)
  have hrun : run (r.last + 1) s = .next (afterReception x' q r.acc
      { x'.edge with event0 := e0, event1 := e1, diagLast := last, diagPos := p,
                     diagCount := count, ackOut := ack }) := by
    rw [← hgo, ← resume_of_byte hpx hq]
    exact (run_succ_of_run hx).trans (step_of_running (now_rst_of_run hn hx) hne)
  exact ⟨x', _, hpseudo.le_last hlimit, hspan.succ hx (receives_of_byte hpx (byte_atByte hq _)), hx,
    ⟨_, hpx⟩, hrun, hsame.trans ((sameSources_edge (busy_of_point hne)).trans
      ⟨rfl, rfl, rfl, rfl, rfl, rfl, rfl, rfl, rfl⟩)⟩

/-- Bytes one after the other: the first ones, and then the rest. -/
theorem recvBytesFrom_add (limit : Nat) (ci di : Nat → Level) (c m n : Nat) :
    recvBytesFrom limit ci di c (m + n) =
      ((recvBytesFrom limit ci di c m).1 ++
          (recvBytesFrom limit ci di (recvBytesFrom limit ci di c m).2 n).1,
        (recvBytesFrom limit ci di (recvBytesFrom limit ci di c m).2 n).2) := by
  induction m generalizing c with
  | zero => simp [recvBytesFrom]
  | succ m ih => rw [Nat.succ_add]; simp only [recvBytesFrom, ih]; rfl

theorem recvBytesFrom_length (limit : Nat) (ci di : Nat → Level) (c n : Nat) :
    (recvBytesFrom limit ci di c n).1.length = n := by
  induction n generalizing c with
  | zero => rfl
  | succ n ih => simp [recvBytesFrom, ih]

theorem le_recvBytesFrom {limit : Nat} (hlimit : 1 ≤ limit) (ci di : Nat → Level) (c n : Nat) :
    c ≤ (recvBytesFrom limit ci di c n).2 := by
  induction n generalizing c with
  | zero => exact le_rfl
  | succ n ih =>
    have hfirst := le_recvFrom_last hlimit ci di 0 c 8
    exact hfirst.trans ((Nat.le_succ _).trans (ih _))

/-! ### The header -/

/-- The reception that starts in `s` has received the header bytes `l`, `d`, `x`: the last of them in
cycle `e`, from the state `y`; `w` is the state that is validated. -/
structure HeaderReceived (s : State) (l d x : Byte) (e : Nat) (y w : State) : Prop where
  pos : 1 ≤ e
  span : Throughout receives s 1 (e + 1)
  last : run e s = .next y
  at_sender : ∃ a, y.point = .receive (.sender a)
  run_eq : run (e + 1) s = .next (y.validate w)
  frameLen_eq : w.frameLen = l
  frameDest_eq : w.frameDest = d
  frameSrc_eq : w.frameSrc = x
  framePay_eq : w.framePay = s.framePay
  build_eq : w.build = s.build

theorem headerReceived {s : State} {l d x : Byte} {c : Nat} (hstarts : s.starts .msgReceive)
    (hs : s.syncsOk) (hlimit : 1 ≤ s.build.edgeTimeout) (h : s.received 3 = ([l, d, x], c))
    (hn : s.noReset c) : ∃ e y w, c = e + 1 ∧ HeaderReceived s l d x e y w := by
  simp only [State.received, recvBytesFrom, Prod.mk.injEq, List.cons.injEq, and_true] at h
  obtain ⟨⟨hl, hd, hx⟩, hc⟩ := h
  have hle (b : Nat) : b ≤ (recvByteFrom s.build.edgeTimeout s.ciAt s.diAt b).last :=
    le_recvFrom_last hlimit _ _ 0 b 8
  set e0 := (recvByteFrom s.build.edgeTimeout s.ciAt s.diAt 1).last
  set e1 := (recvByteFrom s.build.edgeTimeout s.ciAt s.diAt (e0 + 1)).last
  set e2 := (recvByteFrom s.build.edgeTimeout s.ciAt s.diAt (e1 + 1)).last
  have h1 : e0 + 1 ≤ e1 := hle _
  have h2 : e1 + 1 ≤ e2 := hle _
  obtain ⟨y0, w0, hb0⟩ := byteReceived hs hlimit
    (run_succ_of_step (step_of_starts hstarts)) rfl rfl rfl
    (noReset_mono (m := e0 + 1) hn (by omega))
  obtain ⟨y1, w1, hb1⟩ := byteReceived hs hlimit hb0.run_eq rfl rfl rfl
    (noReset_mono (m := e1 + 1) hn (by omega))
  obtain ⟨y2, w2, hb2⟩ := byteReceived hs hlimit hb1.run_eq rfl rfl rfl
    (noReset_mono (m := e2 + 1) hn (by omega))
  rw [hx] at hb2
  refine ⟨e2, y2, { w2 with frameSrc := x }, hc.symm, ?_⟩
  exact {
    pos := hb0.le.trans (by omega)
    span := (hb0.span.trans hb1.span).trans hb2.span
    last := hb2.last
    at_sender := hb2.at_byte
    run_eq := hb2.run_eq
    frameLen_eq := hb2.same.frameLen.trans (hb1.same.frameLen.trans hl)
    frameDest_eq := hb2.same.frameDest.trans hd
    frameSrc_eq := rfl
    framePay_eq := hb2.same.framePay.trans (hb1.same.framePay.trans
      (hb0.same.framePay.trans (edge_framePay s)))
    build_eq := hb2.same.build.trans (hb1.same.build.trans (hb0.same.build.trans (edge_build s))) }

/-! ### The payload -/

/-- What storing bytes from entry `k` on makes of a buffer. -/
def storeAll (store : Nat → Byte → Memory → Memory) : Nat → List Byte → Memory → Memory
  | _, [], m => m
  | k, v :: vs, m => storeAll store (k + 1) vs (store k v m)

/-- The bytes of a payload that is discarded leave FRAME_PAY alone (R132). -/
theorem storeAll_discard (k : Nat) (vs : List Byte) (m : Memory) :
    storeAll (fun _ _ m => m) k vs m = m := by
  induction vs generalizing k with
  | nil => rfl
  | cons v vs ih => exact ih (k + 1)

/-- Stored bytes are read back. -/
theorem read_storeAll {m : Memory} (hm : m.wf = true) (k : Nat) (vs : List Byte) (j : Nat) :
    (storeAll (fun k v m => m.write k v) k vs m).read j =
      if k ≤ j ∧ j < k + vs.length then vs.getD (j - k) 0 else m.read j := by
  induction vs generalizing k m with
  | nil => rw [storeAll, if_neg (by simp)]
  | cons v vs ih =>
    rw [storeAll, ih (write_wf hm k v), List.length_cons]
    rcases lt_trichotomy j k with hlt | rfl | hgt
    · rw [if_neg (by omega), if_neg (by omega), read_write_ne v (by omega)]
    · rw [if_neg (by omega), if_pos (by omega), read_write_same hm]
      simp
    · rw [read_write_ne v (by omega)]
      obtain ⟨i, rfl⟩ := Nat.exists_eq_add_of_lt hgt
      have hget : (v :: vs).getD (k + i + 1 - k) 0 = vs.getD (k + i + 1 - (k + 1)) 0 := by
        rw [show k + i + 1 - k = i + 1 by omega, show k + i + 1 - (k + 1) = i by omega]
        rfl
      rw [hget]
      exact if_congr (by omega) rfl rfl

/-- A loop over the payload bytes: `begins w k` begins byte `k` at the point `body k`, or after the
last one the stop condition `done`; `store` is what it does with a byte (R129, R132). -/
structure PayloadLoop (begins : State → Nat → State) (body : Nat → RecvByteAct → MsgReceivePt)
    (done : MsgReceivePt) (store : Nat → Byte → Memory → Memory) : Prop where
  byte_eq : ∀ k a, (body k a).byte? = some (a, 3 + k)
  next : ∀ (w : State) k, k < w.frameLen.toNat →
    begins w k = State.enter { w with ackOut := true } (.receive (body k firstWait))
  final : ∀ (w : State) k, ¬k < w.frameLen.toNat →
    begins w k = State.enter { w with clkOut := true } (.receive done)
  after : ∀ t k a v (w : State), afterReception t (body k a) v w =
    begins { w with framePay := store k v w.framePay } (k + 1)

theorem payloadLoop_drain : PayloadLoop State.drainFrom .drain (.oversizeStop .clock)
    fun _ _ m => m :=
  ⟨fun _ _ => rfl, fun w _ h => drainFrom_of_lt w h, fun w _ h => drainFrom_of_not_lt w h,
    fun _ _ _ _ _ => rfl⟩

theorem payloadLoop_payload : PayloadLoop State.payloadFrom .payload (.stop .clock)
    fun k v m => m.write k v :=
  ⟨fun _ _ => rfl, fun w _ h => payloadFrom_of_lt w h, fun w _ h => payloadFrom_of_not_lt w h,
    fun _ _ _ _ _ => rfl⟩

/-- The payload bytes from byte `k` on are received and stored, and then the stop condition
begins. -/
theorem PayloadLoop.runs {begins : State → Nat → State} {body : Nat → RecvByteAct → MsgReceivePt}
    {done : MsgReceivePt} {store : Nat → Byte → Memory → Memory}
    (hloop : PayloadLoop begins body done store) {s : State} (hs : s.syncsOk)
    (hlimit : 1 ≤ s.build.edgeTimeout) {n k b c : Nat} {w : State} {vs : List Byte}
    (hrun : run b s = .next (begins w k)) (hlen : w.frameLen.toNat = k + n)
    (hrec : recvBytesFrom s.build.edgeTimeout s.ciAt s.diAt b n = (vs, c)) (hn : s.noReset c) :
    Throughout receives s b c ∧ ∃ v, run c s = .next v ∧ v.point = .receive done ∧ v.cnt = 0 ∧
      v.frameLen = w.frameLen ∧ v.frameDest = w.frameDest ∧ v.frameSrc = w.frameSrc ∧
      v.framePay = storeAll store k vs w.framePay := by
  induction n generalizing k b w vs with
  | zero =>
    cases hrec
    rw [hloop.final w k (by omega)] at hrun
    exact ⟨.nil, _, hrun, rfl, rfl, rfl, rfl, rfl, rfl⟩
  | succ n ih =>
    have hle := le_recvBytesFrom hlimit s.ciAt s.diAt
      ((recvByteFrom s.build.edgeTimeout s.ciAt s.diAt b).last + 1) n
    rw [hloop.next w k (by omega)] at hrun
    obtain ⟨rfl, hc⟩ := Prod.mk.inj hrec
    obtain ⟨x, w', hbyte⟩ := byteReceived hs hlimit hrun rfl rfl (hloop.byte_eq k _)
      (noReset_mono hn (hc ▸ hle))
    have hnext := hbyte.run_eq
    rw [hloop.after] at hnext
    obtain ⟨hspan, v, hv, hp, hcnt, hl, hd, hsrc, hpay⟩ :=
      ih hnext (by rw [hbyte.same.frameLen]; exact hlen.trans (by omega)) (Prod.ext rfl hc)
    refine ⟨hbyte.span.trans hspan, v, hv, hp, hcnt, hl.trans hbyte.same.frameLen,
      hd.trans hbyte.same.frameDest, hsrc.trans hbyte.same.frameSrc, ?_⟩
    rw [hpay, hbyte.same.framePay]
    rfl

end Sys2Proof.Proofs

/-! ## The stop condition and the settle delay of a reception, and what a reception keeps (R129) -/

namespace Sys2Proof.Proofs
open Sys2Proof.Machine Sys2Proof.Laws

/-! ### What every cycle of a reception keeps -/

/-- Only a delivery, which ends the reception, writes the RX message registers. -/
theorem Cycle.rx_registers_of_running {t w u : State} {p : Point} (h : Cycle t w p u)
    (hne : u.point ≠ .idle) :
    u.rxLen = w.rxLen ∧ u.rxDest = w.rxDest ∧ u.rxSrc = w.rxSrc ∧ u.rxStore = w.rxStore := by
  cases h with
  | deliver => exact absurd rfl hne
  | _ => simp

/-- `x` has the RX message registers of `s` (R134). -/
structure SameMessage (s x : State) : Prop where
  rxLen : x.rxLen = s.rxLen
  rxDest : x.rxDest = s.rxDest
  rxSrc : x.rxSrc = s.rxSrc
  rxStore : x.rxStore = s.rxStore

theorem SameMessage.trans {s u v : State} (h : SameMessage s u) (h' : SameMessage u v) :
    SameMessage s v :=
  ⟨h'.rxLen.trans h.rxLen, h'.rxDest.trans h.rxDest, h'.rxSrc.trans h.rxSrc,
    h'.rxStore.trans h.rxStore⟩

theorem sameMessage_edge (s : State) : SameMessage s s.edge :=
  ⟨edge_rxLen s, edge_rxDest s, edge_rxSrc s, edge_rxStore s⟩

/-- The start of a reception leaves them alone. -/
theorem sameMessage_starts (s : State) : SameMessage s (startOf .msgReceive s s.edge) :=
  ⟨edge_rxLen s, edge_rxDest s, edge_rxSrc s, edge_rxStore s⟩

theorem cycle_of_step {x y : State} {q : MsgReceivePt} (hr : x.now.rst = false)
    (hstep : step x = .next y) (hp : x.point = .receive q) :
    Cycle x (recordFailure x.edge (x.point.failure x)) (.receive q) y := by
  have hne : x.point ≠ .idle := by rw [hp]; nofun
  have hc := resume_cycle x x.edge hne
  cases (step_of_running hr hne).symm.trans hstep
  rwa [hp] at hc ⊢

/-- The RX message registers change at the end of a settle delay only. -/
theorem sameMessage_of_step {x y : State} {q : MsgReceivePt} (hr : x.now.rst = false)
    (hstep : step x = .next y) (hp : x.point = .receive q) (h : q ≠ .settle ∨ y.point ≠ .idle) :
    SameMessage x y := by
  have hc := cycle_of_step hr hstep hp
  obtain ⟨e0, e1, code, pos, count, hframe⟩ := recordFailure_frame x.edge (x.point.failure x)
  rw [hframe] at hc
  obtain ⟨hlen, hdest, hsrc, hstore⟩ : y.rxLen = x.edge.rxLen ∧ y.rxDest = x.edge.rxDest ∧
      y.rxSrc = x.edge.rxSrc ∧ y.rxStore = x.edge.rxStore := by
    rcases h with hq | hne
    · rcases hc.rx_registers with hsame | ⟨hp', -⟩
      · exact hsame
      · exact absurd (Point.receive.inj hp') hq
    · exact hc.rx_registers_of_running hne
  exact (sameMessage_edge x).trans ⟨hlen, hdest, hsrc, hstore⟩

theorem receives.point_eq {x : State} (h : receives x) : ∃ q, x.point = .receive q := by
  obtain ⟨hrec, -⟩ := h
  cases hp : x.point with
  | receive q => exact ⟨q, rfl⟩
  | _ => rw [hp] at hrec; cases hrec

theorem SameSources.refl (s : State) : SameSources s s :=
  ⟨rfl, rfl, rfl, rfl, rfl, rfl, rfl, rfl, rfl⟩

/-- Nothing that FRAME or the TX registers hold changes at the clock edge of a reception. -/
theorem receives.edge_sameSources {x : State} (h : receives x) : SameSources x x.edge := by
  obtain ⟨q, hp⟩ := h.point_eq
  exact sameSources_edge (busy_of_point (by rw [hp]; nofun))

/-- The frame equation of a running reception (R97, R151). -/
theorem receives.frame {x y : State} (h : receives x) (hr : x.now.rst = false)
    (hstep : step x = .next y) : setsExactly x y (cycleEvents .msgReceive x y) ∧
      y.config = x.edge.config ∧
      y.txAct = (if y.point.inSend = x.point.inSend then x.txAct else y.point.inSend) ∧
      y.rxAct = (if y.point = .idle then false else x.rxAct) := by
  obtain ⟨q, hp⟩ := h.point_eq
  have hf : x.fetch = some (.instr .msgReceive) := fetch_of_instr (by rw [hp]; rfl)
  have hne : x.point ≠ .idle := by rw [hp]; nofun
  rw [step_of_fetch hr hf] at hstep
  obtain ⟨heq, -, hsets, -, htx, hrx, -⟩ := frameOfMessageReception x y hf hstep
  rw [if_neg hne] at hrx
  exact ⟨hsets, by rw [heq], htx, hrx⟩

/-- What a reception that started in `s` has not touched in `x`, before it delivers or relays: the RX
message registers and `tx_act`; and `rx_act` is set. -/
structure Unanswered (s x : State) : Prop where
  message : SameMessage s x
  txAct : x.txAct = s.txAct
  rxAct : x.rxAct = true

theorem Unanswered.step {s x y : State} (h : Unanswered s x) (hr : x.now.rst = false)
    (hstep : step x = .next y) (hx : receives x) (hy : receives y) : Unanswered s y := by
  obtain ⟨q, hp⟩ := hx.point_eq
  obtain ⟨q', hp'⟩ := hy.point_eq
  have hne : y.point ≠ .idle := by rw [hp']; nofun
  obtain ⟨-, -, htx, hrx⟩ := hx.frame hr hstep
  rw [if_pos (hy.2.trans hx.2.symm)] at htx
  rw [if_neg hne] at hrx
  exact ⟨h.message.trans (sameMessage_of_step hr hstep hp (.inr hne)), htx.trans h.txAct,
    hrx.trans h.rxAct⟩

/-- A reception leaves them alone from its first cycle on. -/
theorem unanswered_throughout {s : State} {n : Nat} (hstarts : s.starts .msgReceive)
    (h : Throughout receives s 1 n) (hn : s.noReset n) :
    Throughout (fun x => receives x ∧ Unanswered s x) s 1 n :=
  h.keeps hn (fun _ _ hr hstep hx hy hR => hR.step hr hstep hx hy)
    (run_succ_of_step (step_of_starts hstarts)) ⟨sameMessage_starts s, edge_txAct s, rfl⟩

/-- From `u` to `v` CONFIG is unchanged and no event flag is cleared. -/
structure Undisturbed (u v : State) : Prop where
  config : v.config = u.config
  flag : ∀ e, u.flag e = true → v.flag e = true

theorem Undisturbed.trans {s u v : State} (h : Undisturbed s u) (h' : Undisturbed u v) :
    Undisturbed s v :=
  ⟨h'.config.trans h.config, fun e he => h'.flag e (h.flag e he)⟩

theorem undisturbed_edge {s : State} (h : (s.now.hSel && s.now.hWe) = false) :
    Undisturbed s s.edge := by
  obtain ⟨hflag, hconfig⟩ := edge_of_no_write h
  exact ⟨hconfig, fun e he => (hflag e).trans he⟩

/-- Without a host write no cycle of a reception disturbs them (R35, R58). -/
theorem receives.undisturbed {x y : State} (hx : receives x) (hr : x.now.rst = false)
    (hstep : step x = .next y) (hwrite : (x.now.hSel && x.now.hWe) = false) : Undisturbed x y := by
  obtain ⟨hsets, hconfig, -⟩ := hx.frame hr hstep
  refine (undisturbed_edge hwrite).trans ⟨hconfig, fun e he => ?_⟩
  rw [hsets e, he]
  rfl

/-- In a run whose first `m` inputs are no host writes there is none in its first `m` cycles. -/
theorem now_of_no_writes {s u : State} {n m : Nat} (hn : s.noReset n)
    (hwrites : ∀ i ∈ s.inputs.take m, (i.hSel && i.hWe) = false) (hu : run n s = .next u)
    (hnm : n < m) : (u.now.hSel && u.now.hWe) = false :=
  now_of_span (P := fun i => (i.hSel && i.hWe) = false) (b := 0) rfl hwrites hn hu (Nat.zero_le n)
    (by omega)

theorem Throughout.undisturbed {s u v : State} {b n m : Nat} (h : Throughout receives s b n)
    (hn : s.noReset n) (hbn : b ≤ n)
    (hwrites : ∀ i ∈ s.inputs.take m, (i.hSel && i.hWe) = false) (hnm : n ≤ m)
    (hu : run b s = .next u) (hv : run n s = .next v) : Undisturbed u v := by
  refine h.carries (R := Undisturbed u) hn hbn (fun k x y _ hk hx hr hstep hq hR => ?_) hu
    ⟨rfl, fun _ he => he⟩ hv
  have hwrite := now_of_no_writes (noReset_mono hn hk.le) hwrites hx (by omega)
  exact hR.trans (hq.undisturbed hr hstep hwrite)

/-! ### The stop condition and the settle delay -/

/-- A cycle of a reception in which neither a byte is received nor a relay sends. -/
def pauses (x : State) : Prop :=
  ∃ q, x.point = .receive q ∧ q.byte? = none ∧ x.point.inSend = false

theorem pauses.receives {x : State} (h : pauses x) : receives x := by
  obtain ⟨q, hp, -, hsend⟩ := h
  exact ⟨by rw [hp]; rfl, hsend⟩

/-- Such a cycle leaves FRAME and the TX registers alone (R123, R129). -/
theorem pauses.sameSources {x y : State} (h : pauses x) (hr : x.now.rst = false)
    (hstep : step x = .next y) : SameSources x y := by
  obtain ⟨q, hp, hq, -⟩ := h
  have hc := cycle_of_step hr hstep hp
  obtain ⟨e0, e1, code, pos, count, hframe⟩ := recordFailure_frame x.edge (x.point.failure x)
  rw [hframe] at hc
  obtain ⟨hlen, hdest, hsrc, hpay, -⟩ := hc.reception_frame_parts
  have heq := hc.reception_frame
  exact (sameSources_edge (busy_of_point (by rw [hp]; nofun))).trans {
    build := by rw [heq]
    txLen := by rw [heq]
    txDest := by rw [heq]
    txByte := by rw [heq]
    txBuf := by rw [heq]
    frameLen := hlen (by rintro _ rfl; cases hq)
    frameDest := hdest (by rintro _ rfl; cases hq)
    frameSrc := hsrc (by rintro _ rfl; cases hq)
    framePay := hpay (by rintro _ _ rfl; cases hq) }

theorem sameSources_of_pauses {s u y : State} {c n : Nat} (h : Throughout pauses s c (n + 1))
    (hn : s.noReset (n + 1)) (hcn : c ≤ n) (hu : run c s = .next u) (hy : run n s = .next y) :
    SameSources u y :=
  Throughout.carries (Q := pauses) (fun k hb hk => h k hb (by omega)) (noReset_mono hn (Nat.le_succ n))
    hcn (fun _ _ _ _ _ _ hr hstep hx hR => hR.trans (hx.sameSources hr hstep)) hu
    (.refl u) hy

/-- A `DELAY` of `l` cycles in a reception that is begun in cycle `c`, and its last cycle. -/
theorem AtDelay.pauses {s u : State} {q : MsgReceivePt} {n : Build → Nat}
    {next : State → State → State} {c l : Nat} (h : AtDelay (.receive q) n next)
    (hq : q.byte? = none) (hsend : (Point.receive q).inSend = false) (hu : run c s = .next u)
    (hp : u.point = .receive q) (hcnt : u.cnt = 0) (hlen : n s.build = l) (hpos : 1 ≤ l)
    (hn : s.noReset (c + l)) : Throughout pauses s c (c + l) ∧
      ∃ y, run (c + (l - 1)) s = .next y ∧ run (c + l) s = .next (next y y.edge) := by
  have hbuild := (run_environment (noReset_mono hn (Nat.le_add_right c l)) hu).1
  obtain ⟨y, hy⟩ := AtDelay.elapses (hp ▸ h) hcnt (hbuild ▸ hlen) hpos (noReset_of_run hn hu)
  refine ⟨fun k hb hk => ?_, y, (run_add hu).trans hy.last.run_eq, (run_add hu).trans hy.run_eq⟩
  obtain ⟨j, rfl⟩ := Nat.exists_eq_add_of_le hb
  obtain ⟨x, hx⟩ := hy.held j (by omega)
  have hpoint := hx.point_eq.trans hp
  exact ⟨x, (run_add hu).trans hx.run_eq, q, hpoint, hq, hpoint ▸ hsend⟩

/-- The stop condition `stop` of a reception and the settle delay `rest` after it, which the
segment `next` follows (R129, R132). -/
structure StopCalls (stop : PhyStopPt → MsgReceivePt) (rest : MsgReceivePt)
    (next : State → State → State) : Prop where
  clock : AtDelay (.receive (stop .clock)) Build.tDelay fun _ w =>
    State.enter { w with datOut := true } (.receive (stop .data))
  data : AtDelay (.receive (stop .data)) Build.tDelay fun _ w => w.enter (.receive rest)
  settle : AtDelay (.receive rest) Build.tSettle next
  stop_pauses : ∀ p, (stop p).byte? = none ∧ (Point.receive (stop p)).inSend = false
  rest_pauses : rest.byte? = none ∧ (Point.receive rest).inSend = false

theorem stopCalls_stop : StopCalls .stop .settle fun t w => t.dispose w where
  clock := ⟨nofun, fun t w hp => by simp only [State.resume, hp]; rfl⟩
  data := ⟨nofun, fun t w hp => by simp only [State.resume, hp]; rfl⟩
  settle := ⟨nofun, fun t w hp => by simp only [State.resume, hp]; rfl⟩
  stop_pauses := fun _ => ⟨rfl, rfl⟩
  rest_pauses := ⟨rfl, rfl⟩

theorem stopCalls_oversize : StopCalls .oversizeStop .oversizeSettle fun _ w => w.finishReceive where
  clock := ⟨nofun, fun t w hp => by simp only [State.resume, hp]; rfl⟩
  data := ⟨nofun, fun t w hp => by simp only [State.resume, hp]; rfl⟩
  settle := ⟨nofun, fun t w hp => by simp only [State.resume, hp]; rfl⟩
  stop_pauses := fun _ => ⟨rfl, rfl⟩
  rest_pauses := ⟨rfl, rfl⟩

/-- The stop condition and the settle delay that begin in `u`, in cycle `c`, end in cycle `n`, from
the state `y`. -/
structure Settles (s u : State) (c n : Nat) (y : State) : Prop where
  le : c ≤ n
  span : Throughout receives s c (n + 1)
  last : run n s = .next y
  same : SameSources u y

theorem StopCalls.runs {stop : PhyStopPt → MsgReceivePt} {rest : MsgReceivePt}
    {next : State → State → State} (h : StopCalls stop rest next) {s u : State} {c n : Nat}
    (hwf : s.build.wf = true) (hu : run c s = .next u) (hp : u.point = .receive (stop .clock))
    (hcnt : u.cnt = 0) (hlen : n + 1 = c + 2 * s.build.tDelay + s.build.tSettle)
    (hn : s.noReset (n + 1)) :
    ∃ y, Settles s u c n y ∧ run (n + 1) s = .next (next y y.edge) := by
  obtain ⟨-, -, hdelay, -, hsettle⟩ := timing_pos hwf
  have hsplit : n + 1 = c + s.build.tDelay + s.build.tDelay + s.build.tSettle := by omega
  obtain ⟨hspan₁, y₁, -, h₁⟩ := h.clock.pauses (h.stop_pauses _).1 (h.stop_pauses _).2 hu hp hcnt rfl
    hdelay (noReset_mono hn (by omega))
  obtain ⟨hspan₂, y₂, -, h₂⟩ := h.data.pauses (h.stop_pauses _).1 (h.stop_pauses _).2 h₁ rfl rfl rfl
    hdelay (noReset_mono hn (by omega))
  obtain ⟨hspan₃, y, hy, h₃⟩ := h.settle.pauses h.rest_pauses.1 h.rest_pauses.2 h₂ rfl rfl rfl
    hsettle (noReset_mono hn (by omega))
  have hspan := (hspan₁.trans hspan₂).trans hspan₃
  have hlast : c + s.build.tDelay + s.build.tDelay + (s.build.tSettle - 1) = n := by omega
  rw [← hsplit] at hspan h₃
  rw [hlast] at hy
  exact ⟨y, ⟨by omega, hspan.mono fun _ hx => hx.receives, hy,
    sameSources_of_pauses hspan hn (by omega) hu hy⟩, h₃⟩

/-! ### The end of a reception -/

/-- The last statement of every path: the idle lines and `IDLE_POLL` (R129, R139). -/
structure Finished (u : State) : Prop where
  idle : u.point = .idle
  rxAct : u.rxAct = false
  clkOut : u.clkOut = true
  datOut : u.datOut = true
  ackOut : u.ackOut = true

theorem finished_finishReceive (w : State) : Finished w.finishReceive := ⟨rfl, rfl, rfl, rfl, rfl⟩

/-- The end of a reception leaves the flags. -/
theorem finishReceive_flag (w : State) (e : Event) : w.finishReceive.flag e = w.flag e := rfl

/-- A reception that ends with the event `e` sets it. -/
theorem raise_finishReceive_flag (w : State) (e : Event) :
    (w.raise e).finishReceive.flag e = true := by
  rw [finishReceive_flag, raise_flag]
  simp

end Sys2Proof.Proofs

/-! ## The ways a received frame is used (R129 to R139) -/

namespace Sys2Proof.Proofs
open Sys2Proof.Machine Sys2Proof.Laws

/-- Up to its last cycle a reception has not touched the RX message registers and `tx_act`. -/
theorem unanswered_of_run {s y : State} {n : Nat} (hstarts : s.starts .msgReceive)
    (h : Throughout receives s 1 (n + 1)) (hn : s.noReset (n + 1)) (hpos : 1 ≤ n)
    (hy : run n s = .next y) : Unanswered s y := by
  obtain ⟨y', hy', -, hkept⟩ := unanswered_throughout hstarts h hn n hpos (Nat.lt_succ_self n)
  cases hy.symm.trans hy'
  exact hkept

/-! ### A stale echo (R130) -/

section Header
variable {s y w : State} {l d x : Byte} {e : Nat}

/-- The cycle of the last header byte. -/
theorem HeaderReceived.step_eq (h : HeaderReceived s l d x e y w) : step y = .next (y.validate w) :=
  (run_succ_of_run h.last).symm.trans h.run_eq

/-- The RX message registers after the header. -/
theorem HeaderReceived.sameMessage (h : HeaderReceived s l d x e y w)
    (hstarts : s.starts .msgReceive) (hn : s.noReset (e + 1)) : SameMessage s (y.validate w) := by
  obtain ⟨a, hp⟩ := h.at_sender
  exact (unanswered_of_run hstarts h.span hn h.pos h.last).message.trans
    (sameMessage_of_step (now_rst_of_run hn h.last) h.step_eq hp (.inl nofun))

theorem HeaderReceived.validate_of_stale (h : HeaderReceived s l d x e y w)
    (hstale : x = s.build.nodeId ∧ d ≠ s.build.nodeId) :
    y.validate w = (w.raise .staleEcho).finishReceive := by
  rw [State.validate, if_pos (by rwa [h.frameSrc_eq, h.frameDest_eq, h.build_eq])]

theorem HeaderReceived.validate_of_oversize (h : HeaderReceived s l d x e y w)
    (hns : ¬(x = s.build.nodeId ∧ d ≠ s.build.nodeId)) (hlen : s.build.maxLen < l.toNat) :
    y.validate w = if y.drainOversize then (w.raise .oversize).drainFrom 0
      else (w.raise .oversize).beginPhyStop fun q => .receive (.oversizeStop q) := by
  rw [State.validate, if_neg (by rwa [h.frameSrc_eq, h.frameDest_eq, h.build_eq]),
    if_pos (by rwa [h.frameLen_eq, h.build_eq])]

theorem HeaderReceived.validate_of_fits (h : HeaderReceived s l d x e y w)
    (hns : ¬(x = s.build.nodeId ∧ d ≠ s.build.nodeId)) (hlen : l.toNat ≤ s.build.maxLen) :
    y.validate w = w.payloadFrom 0 := by
  rw [State.validate, if_neg (by rwa [h.frameSrc_eq, h.frameDest_eq, h.build_eq]),
    if_neg (by rw [h.frameLen_eq, h.build_eq]; omega)]

end Header

/-- The cycles of a reception counted from the state after the one in which it starts. -/
theorem inReceive_after_start {s : State} {n : Nat} (hstarts : s.starts .msgReceive)
    (h : Throughout receives s 1 (n + 1)) :
    ∀ m, m < n → ∃ u, run m (startOf .msgReceive s s.edge) = .next u ∧ u.point.inReceive = true :=
  (h.mono fun _ hx => hx.1).after_start (step_of_starts hstarts)

/-- The start of a reception sets START_SEEN (R151). -/
theorem startSeen_of_starts (s : State) :
    (startOf .msgReceive s s.edge).flag .startSeen = true := by
  have hsets : sets s.edge (startOf .msgReceive s s.edge) [.startSeen] := sets_one _ rfl rfl
  exact flag_of_sets hsets (by simp)

/-- Settles O35: the validation of the header ends the reception. -/
theorem staleEchoIsAborted : Obligations.StaleEchoIsAborted := by
  intro s l d x c hstarts hs hlimit hrec hsrc hdest hn
  obtain ⟨e, y, w, rfl, hheader⟩ := headerReceived hstarts hs hlimit hrec hn
  have hkept := hheader.sameMessage hstarts hn
  have hlast := hheader.run_eq
  rw [hheader.validate_of_stale ⟨hsrc, hdest⟩] at hkept hlast
  rw [run_succ_of_step (step_of_starts hstarts)] at hlast
  have hend := finished_finishReceive (w.raise .staleEcho)
  exact ⟨_, exec_of_starts hstarts, rfl, startSeen_of_starts s,
    inReceive_after_start hstarts hheader.span, _, hlast, hend.idle, hend.rxAct,
    raise_finishReceive_flag w _, hend.clkOut, hend.datOut, hend.ackOut, hkept.rxLen, hkept.rxDest,
    hkept.rxSrc, hkept.rxStore, hheader.framePay_eq⟩

/-! ### An oversize message (R132) -/

/-- The payload that follows a received header. -/
theorem received_add {s : State} {h : List Byte} {m c : Nat} (n : Nat)
    (hrec : s.received m = (h, c)) :
    s.received (m + n) = (h ++ (recvBytesFrom s.build.edgeTimeout s.ciAt s.diAt c n).1,
      (recvBytesFrom s.build.edgeTimeout s.ciAt s.diAt c n).2) := by
  unfold State.received at hrec ⊢
  rw [recvBytesFrom_add, hrec]

/-- A host that writes nothing in a number of cycles from the start of a reception on leaves CONFIG and
the flags to it. -/
theorem undisturbed_of_starts {s v : State} {n m : Nat} (hstarts : s.starts .msgReceive)
    (h : Throughout receives s 1 n) (hn : s.noReset n) (hpos : 1 ≤ n)
    (hwrites : ∀ i ∈ s.inputs.take m, (i.hSel && i.hWe) = false) (hnm : n ≤ m)
    (hv : run n s = .next v) : v.config = s.config := by
  have hstart := run_succ_of_step (n := 0) (step_of_starts hstarts)
  have hwrite := now_of_no_writes (noReset_mono hn (Nat.zero_le n)) hwrites (u := s) rfl (by omega)
  have hconfig : (startOf .msgReceive s s.edge).config = s.config := (undisturbed_edge hwrite).config
  exact (h.undisturbed hn hpos hwrites hnm hstart hv).config.trans hconfig

/-- The header of an oversize message and what is drained of its payload, up to its stop condition in
cycle `c`, which `u` begins. -/
structure OversizeRead (s : State) (c : Nat) (u : State) : Prop where
  pos : 1 ≤ c
  span : Throughout receives s 1 c
  run_eq : run c s = .next u
  point_eq : u.point = .receive (.oversizeStop .clock)
  cnt_eq : u.cnt = 0
  framePay_eq : u.framePay = s.framePay
  flag : u.flag .oversize = true

theorem oversizeRead {s : State} {l d x : Byte} {c c' : Nat} (hstarts : s.starts .msgReceive)
    (hs : s.syncsOk) (hlimit : 1 ≤ s.build.edgeTimeout) (hrec : s.received 3 = ([l, d, x], c))
    (hns : ¬(x = s.build.nodeId ∧ d ≠ s.build.nodeId)) (hlen : s.build.maxLen < l.toNat)
    (hc : c' = (if s.drainOversize = true then (s.received (3 + l.toNat)).2 else c))
    (hn : s.noReset c') {m : Nat} (hwrites : ∀ i ∈ s.inputs.take m, (i.hSel && i.hWe) = false)
    (hm : c' ≤ m) : ∃ u, OversizeRead s c' u := by
  rw [received_add l.toNat hrec] at hc
  have hle : c ≤ c' := by
    rw [hc]
    split
    · exact le_recvBytesFrom hlimit _ _ _ _
    · exact le_rfl
  obtain ⟨e, y, w, rfl, hheader⟩ := headerReceived hstarts hs hlimit hrec (noReset_mono hn hle)
  have hnext := hheader.run_eq
  rw [hheader.validate_of_oversize hns hlen] at hnext
  have hflag : (w.raise .oversize).flag .oversize = true := by simp
  have hpay : (w.raise .oversize).framePay = s.framePay := hheader.framePay_eq
  have hconfig : y.drainOversize = s.drainOversize := by
    have hspan : Throughout receives s 1 e := fun k hb hk => hheader.span k hb (by omega)
    unfold State.drainOversize
    rw [undisturbed_of_starts hstarts hspan (noReset_mono hn (by omega)) hheader.pos hwrites
      (by omega) hheader.last]
  rw [hconfig] at hnext
  split_ifs at hc hnext
  · obtain ⟨hspan, u, hu, hp, hcnt, -, -, -, hpay'⟩ := payloadLoop_drain.runs (c := c') hs hlimit hnext
      (show (w.raise .oversize).frameLen.toNat = 0 + l.toNat by
        rw [Nat.zero_add, ← hheader.frameLen_eq]; rfl) (Prod.ext rfl hc.symm) hn
    have hdrain : ((w.raise .oversize).drainFrom 0).flag .oversize = true := by
      unfold State.drainFrom
      split <;> exact hflag
    exact ⟨u, Nat.le_trans (Nat.le_add_left 1 e) hle, hheader.span.trans hspan, hu, hp, hcnt,
      hpay'.trans ((storeAll_discard _ _ _).trans hpay),
      (hspan.undisturbed hn hle hwrites hm hnext hu).flag _ hdrain⟩
  · subst hc
    exact ⟨_, Nat.le_add_left 1 e, hheader.span, hnext, rfl, rfl, hpay, hflag⟩

/-- Settles O36: the oversize message is discarded at the end of its settle delay. -/
theorem oversizeIsDiscarded : Obligations.OversizeIsDiscarded := by
  intro s l d x c c' hstarts hs hwf hrec hns hlen hc n hn hwrites
  obtain ⟨-, hlimit, -⟩ := timing_pos hwf
  rw [Nat.add_comm] at hn hwrites
  obtain ⟨u, hu⟩ := oversizeRead (m := n + 1) hstarts hs hlimit hrec hns hlen hc
    (noReset_mono hn (by omega)) hwrites (by omega)
  have hcycles : n + 1 = c' + 2 * s.build.tDelay + s.build.tSettle := by have := hu.pos; omega
  obtain ⟨y, hy, hlast⟩ := stopCalls_oversize.runs hwf hu.run_eq hu.point_eq hu.cnt_eq hcycles hn
  have hspan := hu.span.trans hy.span
  have hn0 := noReset_mono hn (Nat.le_succ n)
  have hkept := (unanswered_of_run hstarts hspan hn (hu.pos.trans hy.le) hy.last).message.trans
    (sameMessage_edge y)
  have hcalm : Undisturbed u y := Throughout.undisturbed
    (fun k hb hk => hy.span k hb (by omega)) hn0 hy.le hwrites (Nat.le_succ n) hu.run_eq hy.last
  have hflag : y.edge.flag .oversize = true :=
    (undisturbed_edge (now_of_no_writes hn0 hwrites hy.last (Nat.lt_succ_self n))).flag _
      (hcalm.flag _ hu.flag)
  have hpay : y.edge.framePay = s.framePay :=
    (edge_framePay y).trans (hy.same.framePay.trans hu.framePay_eq)
  have hend := finished_finishReceive y.edge
  rw [run_succ_of_step (step_of_starts hstarts)] at hlast
  exact ⟨_, exec_of_starts hstarts, rfl, startSeen_of_starts s, inReceive_after_start hstarts hspan,
    _, hlast, hend.idle, hend.rxAct, hflag, hend.clkOut, hend.datOut, hend.ackOut, hkept.rxLen,
    hkept.rxDest, hkept.rxSrc, hkept.rxStore, hpay⟩

end Sys2Proof.Proofs

/-! ## A message that fits (R134 to R138) -/

namespace Sys2Proof.Proofs
open Sys2Proof.Machine Sys2Proof.Laws

/-- The reception that starts in `s` has received the message `l`, `d`, `x`, `pay`; `y`, in cycle `n`,
is the last cycle of its settle delay, after which it is disposed of. -/
structure MessageReceived (s : State) (l d x : Byte) (pay : List Byte) (n : Nat) (y : State) :
    Prop where
  pos : 1 ≤ n
  span : Throughout receives s 1 (n + 1)
  last : run n s = .next y
  run_eq : run (n + 1) s = .next (y.dispose y.edge)
  build_eq : y.build = s.build
  length_eq : pay.length = l.toNat
  frameLen_eq : y.frameLen = l
  frameDest_eq : y.frameDest = d
  frameSrc_eq : y.frameSrc = x
  framePay_eq : y.framePay = storeAll (fun k v m => m.write k v) 0 pay s.framePay

/-- A received message is a received header and the payload after it. -/
theorem received_header_payload {s : State} {l d x : Byte} {pay : List Byte} {n c : Nat}
    (h : s.received (3 + n) = (l :: d :: x :: pay, c)) : ∃ c₀, s.received 3 = ([l, d, x], c₀) ∧
      recvBytesFrom s.build.edgeTimeout s.ciAt s.diAt c₀ n = (pay, c) := by
  have hlength : (s.received 3).1.length = [l, d, x].length := recvBytesFrom_length _ _ _ _ _
  rw [received_add (h := (s.received 3).1) (c := (s.received 3).2) n rfl, Prod.mk.injEq] at h
  obtain ⟨hbytes, hc⟩ := h
  obtain ⟨hheader, hpay⟩ := List.append_inj (s₂ := [l, d, x]) hbytes hlength
  exact ⟨_, Prod.ext hheader rfl, Prod.ext hpay hc⟩

theorem messageReceived {s : State} {l d x : Byte} {pay : List Byte} {c n : Nat}
    (hstarts : s.starts .msgReceive) (hs : s.syncsOk) (hwf : s.build.wf = true)
    (hrec : s.received (3 + l.toNat) = (l :: d :: x :: pay, c))
    (hns : ¬(x = s.build.nodeId ∧ d ≠ s.build.nodeId)) (hlen : l.toNat ≤ s.build.maxLen)
    (hn_eq : n = c - 1 + 2 * s.build.tDelay + s.build.tSettle) (hn : s.noReset (n + 1)) :
    ∃ y, MessageReceived s l d x pay n y := by
  obtain ⟨-, hlimit, -⟩ := timing_pos hwf
  obtain ⟨c₀, hheader, hpay⟩ := received_header_payload hrec
  have hlength := recvBytesFrom_length s.build.edgeTimeout s.ciAt s.diAt c₀ l.toNat
  have hle := le_recvBytesFrom hlimit s.ciAt s.diAt c₀ l.toNat
  have hpos : 1 ≤ c₀ := by
    have := le_recvBytesFrom hlimit s.ciAt s.diAt 1 3
    rwa [show recvBytesFrom _ _ _ 1 3 = _ from hheader] at this
  rw [hpay] at hlength hle
  have hcycles : n + 1 = c + 2 * s.build.tDelay + s.build.tSettle := by omega
  obtain ⟨e, y₀, w, rfl, hw⟩ := headerReceived hstarts hs hlimit hheader
    (noReset_mono hn (by omega))
  have hnext := hw.run_eq
  rw [hw.validate_of_fits hns hlen] at hnext
  obtain ⟨hspan, v, hv, hp, hcnt, hl, hd, hsrc, hstored⟩ := payloadLoop_payload.runs (n := l.toNat)
    hs hlimit hnext (by rw [hw.frameLen_eq, Nat.zero_add]) hpay (noReset_mono hn (by omega))
  obtain ⟨y, hy, hlast⟩ := stopCalls_stop.runs hwf hv hp hcnt hcycles hn
  exact ⟨y, {
    pos := hw.pos.trans (by have := hy.le; omega)
    span := (hw.span.trans hspan).trans hy.span
    last := hy.last
    run_eq := hlast
    build_eq := (run_environment (noReset_mono hn (Nat.le_succ n)) hy.last).1
    length_eq := hlength
    frameLen_eq := hy.same.frameLen.trans (hl.trans hw.frameLen_eq)
    frameDest_eq := hy.same.frameDest.trans (hd.trans hw.frameDest_eq)
    frameSrc_eq := hy.same.frameSrc.trans (hsrc.trans hw.frameSrc_eq)
    framePay_eq := hy.same.framePay.trans (hstored.trans (congrArg _ hw.framePay_eq)) }⟩

/-- The payload bytes stand in FRAME as they were received. -/
theorem MessageReceived.read_framePay {s y : State} {l d x : Byte} {pay : List Byte} {n k : Nat}
    (h : MessageReceived s l d x pay n y) (hwf : s.framePay.wf = true) (hk : k < l.toNat) :
    y.framePay.read k = pay.getD k 0 := by
  have hlength := h.length_eq
  rw [h.framePay_eq, read_storeAll hwf, if_pos (by omega), Nat.sub_zero]

theorem MessageReceived.unanswered {s y : State} {l d x : Byte} {pay : List Byte} {n : Nat}
    (h : MessageReceived s l d x pay n y) (hstarts : s.starts .msgReceive)
    (hn : s.noReset (n + 1)) : Unanswered s y :=
  unanswered_of_run hstarts h.span hn h.pos h.last

/-! ### A message for this node (R134, R135) -/

/-- What a delivery leaves in the RX message registers (R134). -/
theorem delivered_registers (w : State) :
    let u := (w.deliver.raise .msgDelivered).finishReceive
    u.build = w.build ∧ u.rxLen = w.frameLen ∧ u.rxDest = w.frameDest ∧ u.rxSrc = w.frameSrc ∧
      u.rxStore = w.framePay.copy w.build.maxLen w.rxStore := by
  simp

/-- The RX message as the host reads it (R45). -/
theorem readReg_rxBuf (u : State) (k : Nat) : u.readReg (.rxBuf k) =
    if k < u.build.maxLen ∧ k < u.rxLen.toNat then u.rxStore.read k else 0 := rfl

/-- Settles O37: the delivery copies FRAME at the edge that ends the settle delay. -/
theorem messageForThisNodeIsDelivered : Obligations.MessageForThisNodeIsDelivered := by
  intro s l x pay c hstarts hinv hrec hlen n hn
  rw [Nat.add_comm] at hn
  obtain ⟨y, hy⟩ := messageReceived hstarts hinv.syncs_ok hinv.build_ok hrec (fun h => h.2 rfl) hlen
    rfl hn
  have hlast := hy.run_eq
  rw [State.dispose, if_pos (by rw [edge_frameDest, edge_build, hy.frameDest_eq, hy.build_eq]),
    run_succ_of_step (step_of_starts hstarts)] at hlast
  have hend := finished_finishReceive (y.edge.deliver.raise .msgDelivered)
  obtain ⟨hbuild, hlen', hdest, hsrc, hstore⟩ := delivered_registers y.edge
  rw [edge_build, hy.build_eq] at hbuild
  rw [edge_frameLen, hy.frameLen_eq] at hlen'
  rw [edge_frameDest, hy.frameDest_eq] at hdest
  rw [edge_frameSrc, hy.frameSrc_eq] at hsrc
  rw [edge_framePay, edge_build, hy.build_eq, edge_rxStore,
    (hy.unanswered hstarts hn).message.rxStore] at hstore
  refine ⟨_, exec_of_starts hstarts, rfl, startSeen_of_starts s, fun m hm => ?before, _, hlast,
    hend.idle, hend.rxAct, raise_finishReceive_flag _ _, hend.clkOut, hend.datOut, hend.ackOut,
    hlen', hdest, hsrc, fun k => ?bytes⟩
  case before =>
    obtain ⟨u, hu, hrec, hkept⟩ := (unanswered_throughout hstarts hy.span hn).after_start
      (step_of_starts hstarts) m hm
    exact ⟨u, hu, hrec.1, hkept.message.rxLen, hkept.message.rxDest, hkept.message.rxSrc,
      hkept.message.rxStore⟩
  case bytes =>
    rw [readReg_rxBuf, hbuild, hlen', hstore]
    by_cases hk : k < l.toNat
    · rw [if_pos ⟨by omega, hk⟩, if_pos hk, read_copy hinv.rxStore_ok.1, if_pos (by omega),
        hy.read_framePay hinv.framePay_ok.1 hk]
    · rw [if_neg fun h => hk h.2, if_neg hk]

/-! ### An empty message for another node (R138) -/

/-- Settles O38: an empty message is dropped where a relay would begin. -/
theorem emptyMessageIsDropped : Obligations.EmptyMessageIsDropped := by
  intro s d x c hstarts hs hwf hrec hdest hsrc n hn
  rw [Nat.add_comm] at hn
  obtain ⟨y, hy⟩ := messageReceived (l := 0) (pay := []) hstarts hs hwf hrec (fun h => hsrc h.1)
    (Nat.zero_le _) rfl hn
  have hlast := hy.run_eq
  rw [State.dispose, if_neg (by rwa [edge_frameDest, edge_build, hy.frameDest_eq, hy.build_eq]),
    if_neg (by rw [edge_frameLen, hy.frameLen_eq]; decide),
    run_succ_of_step (step_of_starts hstarts)] at hlast
  have hend := finished_finishReceive (y.edge.raise .msgDropped)
  have hkept := (hy.unanswered hstarts hn).message.trans (sameMessage_edge y)
  refine ⟨_, exec_of_starts hstarts, rfl, startSeen_of_starts s, fun m hm => ?before, _, hlast,
    hend.idle, hend.rxAct, raise_finishReceive_flag _ _, hend.clkOut, hend.datOut, hend.ackOut,
    hkept.rxLen, hkept.rxDest, hkept.rxSrc, hkept.rxStore⟩
  case before =>
    obtain ⟨u, hu, hrec, hkept⟩ := (unanswered_throughout hstarts hy.span hn).after_start
      (step_of_starts hstarts) m hm
    exact ⟨u, hu, hrec.1, hkept.txAct⟩

/-! ### A message for another node (R136, R137) -/

/-- The bytes of FRAME are the bytes received (R123). -/
theorem MessageReceived.frameByte {s y : State} {l d x : Byte} {pay : List Byte} {n p : Nat}
    (h : MessageReceived s l d x pay n y) (hwf : s.framePay.wf = true) (hp : p < 3 + l.toNat) :
    y.frameByte .frame p = (l :: d :: x :: pay).getD p 0 := by
  rw [frameByte_frame]
  rcases p with _ | _ | _ | k
  · exact h.frameLen_eq
  · exact h.frameDest_eq
  · exact h.frameSrc_eq
  · exact h.read_framePay hwf (by omega)

/-- What a relay leaves alone when it begins. -/
theorem sameSources_beginRelay {z : State} (h : receives z) : SameSources z z.edge.beginRelay :=
  h.edge_sameSources.trans ⟨rfl, rfl, rfl, rfl, rfl, rfl, rfl, rfl, rfl⟩

/-- The bracket before a relay (R137). -/
theorem atDelay_relayBefore : AtDelay (.receive .relayBefore) Build.tSettle fun _ w => w.beginRelay :=
  ⟨nofun, fun t w hp => by simp only [State.resume, hp]; rfl⟩

/-- The reception that has received its message in `y` comes to its relay after cycle `m`, from the
state `z`. -/
structure ComesToRelay (s y : State) (m : Nat) (z : State) : Prop where
  pos : 1 ≤ m
  span : Throughout receives s 1 (m + 1)
  last : run m s = .next z
  run_eq : run (m + 1) s = .next z.edge.beginRelay
  same : SameSources y z

theorem MessageReceived.comesToRelay {s y : State} {l d x : Byte} {pay : List Byte} {n m : Nat}
    (h : MessageReceived s l d x pay n y) (hwf : s.build.wf = true) (hdest : d ≠ s.build.nodeId)
    (hpos : 0 < l.toNat) (hm : m = n + if y.resync = true then s.build.tSettle else 0)
    (hn : s.noReset (m + 1)) : ∃ z, ComesToRelay s y m z := by
  obtain ⟨-, -, -, -, hsettle⟩ := timing_pos hwf
  have hnext := h.run_eq
  rw [State.dispose, if_neg (by rwa [edge_frameDest, edge_build, h.frameDest_eq, h.build_eq]),
    if_pos (by rwa [edge_frameLen, h.frameLen_eq])] at hnext
  split_ifs at hm hnext with hresync
  case neg =>
    subst hm
    exact ⟨y, h.pos, h.span, h.last, hnext, .refl y⟩
  case pos =>
    have hcycles : m + 1 = n + 1 + s.build.tSettle := by omega
    obtain ⟨hspan, z, hz, hlast⟩ := atDelay_relayBefore.pauses rfl rfl hnext rfl rfl rfl hsettle
      (hcycles ▸ hn)
    rw [show n + 1 + (s.build.tSettle - 1) = m by omega] at hz
    rw [← hcycles] at hspan hlast
    have hbracket : SameSources y (y.edge.linesIdle.enter (.receive .relayBefore)) := by
      obtain ⟨y', hy, hrec⟩ := h.span n h.pos (Nat.lt_succ_self n)
      cases h.last.symm.trans hy
      exact hrec.edge_sameSources.trans ⟨rfl, rfl, rfl, rfl, rfl, rfl, rfl, rfl, rfl⟩
    exact ⟨z, h.pos.trans (by omega), h.span.trans (hspan.mono fun _ hx => hx.receives), hz, hlast,
      hbracket.trans (sameSources_of_pauses hspan hn (by omega) hnext hz)⟩

/-- Settles O39: the relay begins with FRAME as the bytes were received. -/
theorem messageForAnotherNodeIsRelayed : Obligations.MessageForAnotherNodeIsRelayed := by
  intro s l d x pay c hstarts hinv hrec hdest hsrc hpos hlen m hn hwrites
  rw [Nat.add_comm] at hn hwrites
  obtain ⟨y, hy⟩ := messageReceived hstarts hinv.syncs_ok hinv.build_ok hrec (fun h => hsrc h.1) hlen
    rfl (noReset_mono hn (by simp only [m]; omega))
  have hresync : y.resync = s.resync := by
    unfold State.resync
    rw [undisturbed_of_starts hstarts (fun k hb hk => hy.span k hb (by omega))
      (noReset_mono hn (by simp only [m]; omega)) hy.pos hwrites (by simp only [m]; omega) hy.last]
  obtain ⟨z, hz⟩ := hy.comesToRelay hinv.build_ok hdest hpos (by rw [hresync]) hn
  obtain ⟨z', hz', hreceives⟩ := hz.span m hz.pos (Nat.lt_succ_self m)
  cases hz.last.symm.trans hz'
  have hsame := hz.same.trans (sameSources_beginRelay hreceives)
  have hrx : z.edge.beginRelay.rxAct = true :=
    (edge_rxAct z).trans (unanswered_of_run hstarts hz.span hn hz.pos hz.last).rxAct
  have hlast := hz.run_eq
  rw [run_succ_of_step (step_of_starts hstarts)] at hlast
  refine ⟨_, exec_of_starts hstarts, rfl, startSeen_of_starts s, _, hlast, hrx, rfl, rfl, rfl, rfl,
    rfl, ?_, fun p hp => ?_⟩
  · rw [hsame.frameCount, State.frameCount, hy.frameLen_eq]
  · rw [hsame.frameByte, hy.frameByte hinv.framePay_ok.1 hp]

end Sys2Proof.Proofs

/-! ## The interrupt masks (R147, R148) -/

namespace Sys2Proof.Proofs
open Sys2Proof.Machine Sys2Proof.Laws

/-- The segment of a cycle does not depend on the masks. -/
theorem segment_masks (s : State) (m0 m1 : Byte) :
    segment { s with irqEn0 := m0, irqEn1 := m1 } = segment s := by
  have hstart (i : Instr) : startOf i { s with irqEn0 := m0, irqEn1 := m1 } = startOf i s := by
    cases i <;> rfl
  have hresume : State.resume { s with irqEn0 := m0, irqEn1 := m1 } = s.resume := rfl
  simp only [segment, hstart, hresume]
  rfl

/-- Without a host write the clock edge passes the masks through. -/
theorem edge_masks {s : State} (m0 m1 : Byte) (h : (s.now.hSel && s.now.hWe) = false) :
    State.edge { s with irqEn0 := m0, irqEn1 := m1 } =
      { s.edge with irqEn0 := m0, irqEn1 := m1 } := by
  have haccess : State.hostAccess { s with irqEn0 := m0, irqEn1 := m1 } =
      { s with irqEn0 := m0, irqEn1 := m1 } := hostAccess_of_no_write _ h
  rw [edge_eq, edge_eq, haccess, hostAccess_of_no_write s h]
  rfl

/-- Settles O20: no segment sees the masks, and without a host write the clock edge passes them
through. -/
theorem masksChangeOnlyTheInterruptRequest : Obligations.MasksChangeOnlyTheInterruptRequest := by
  intro s t m0 m1 hr hwrite h
  have hedge := edge_masks m0 m1 hwrite
  obtain ⟨u, rfl, hstep⟩ := step_overlay (s := { s with irqEn0 := m0, irqEn1 := m1 }) hr hr
    (segment_masks s m0 m1).symm (by rw [hedge]; rfl) h
  exact ⟨by rw [hstep, hedge]; rfl, rfl⟩

end Sys2Proof.Proofs

/-! ## Nodes at rest (R78, R160, R163) -/

namespace Sys2Proof.Proofs
open Sys2Proof.Machine Sys2Proof.Laws

/-- A synchroniser of idle stages shows the idle level (R22, R78). -/
theorem getLastD_of_all_true {l : List Level} (h : ∀ x ∈ l, x = true) : l.getLastD true = true := by
  rw [List.eq_replicate_of_mem h]
  exact getLastD_replicate_true l.length

/-- An idle pin keeps the stages of its synchroniser idle. -/
theorem shiftIn_all_true {l : List Level} (h : ∀ x ∈ l, x = true) :
    ∀ x ∈ shiftIn true l, x = true := by
  rw [List.eq_replicate_of_mem h, shiftIn_replicate]
  exact fun x hx => List.eq_of_mem_replicate hx

theorem resetOf_atRest (b : Build) (xs : List Input) : (State.resetOf b xs).atRest := by
  refine ⟨rfl, rfl, fun x hx => ?_, rfl, rfl, rfl, rfl⟩
  simp only [State.resetOf, List.mem_append, List.mem_replicate] at hx
  tauto

/-- CMD is the register at 0x001 (R56). -/
theorem address_of_cmd {a : Addr} (h : regAt a = .cmd) : a = 0x001 := by
  unfold regAt at h
  split at h
  case h_2 ha => exact regAt_of_toNat ha
  case h_24 => split_ifs at h
  all_goals cases h

/-- Only a write to CMD touches the pending latch (R27, R95). -/
theorem writeReg_pendValid (s : State) {r : Reg} (d : Byte) (h : r ≠ .cmd) :
    (s.writeReg r d).pendValid = s.pendValid := by
  cases r with
  | cmd => exact absurd rfl h
  | txLen | txDest | txByte => simp only [State.writeReg, State.writeTx]; split <;> rfl
  | txBuf k => simp only [State.writeReg, State.writeTxBuf, State.writeTx]; split_ifs <;> rfl
  | _ => rfl

/-- With no CMD write but an illegal one, no command is latched (R94). -/
theorem hostAccess_pendValid_of_illegal {s : State} (hr : s.now.rst = false)
    (hcmd : ∀ d, s.writes 0x001 d → s.cmdVerdict d = .illegal) :
    s.hostAccess.pendValid = s.pendValid := by
  unfold State.hostAccess
  split
  case isTrue hwrite =>
    obtain ⟨hsel, hwe⟩ := Bool.and_eq_true_iff.mp hwrite
    by_cases hreg : regAt s.now.hAddr = .cmd
    · have hill := hcmd s.now.hWdata ⟨hr, hsel, hwe, address_of_cmd hreg, rfl⟩
      rw [State.hostWrite, hreg, State.writeReg, writeCmd_of_illegal hill, raise_pendValid]
    · exact writeReg_pendValid s _ hreg
  case isFalse => rfl

/-- At rest no start condition is seen and no command is pending: `IDLE_POLL` goes on (R90). -/
theorem poll_of_atRest {s : State} (h : s.atRest) : s.poll = none := by
  obtain ⟨-, hpend, hsync, -⟩ := h
  have hdi : s.di = true := getLastD_of_all_true fun x hx => hsync x (by simp [hx])
  have hdet : s.startDet = false := by simp [State.startDet, hdi]
  simp [poll_of_no_start, hdet, hpend]

/-- A node at rest stays so, in reset or not, if its pins are idle and its host writes no command
that is accepted (R163). -/
theorem step_of_atRest {s : State} (h : s.atRest)
    (hpins : s.now.clkIn = true ∧ s.now.datIn = true ∧ s.now.ackIn = true)
    (hcmd : ∀ d, s.writes 0x001 d → s.cmdVerdict d = .illegal) :
    ∃ t, step s = .next t ∧ t.atRest := by
  cases hr : s.now.rst with
  | true => exact ⟨s.resetEdge, if_pos hr, resetOf_atRest s.build s.inputs.tail⟩
  | false =>
    refine ⟨s.edge, step_of_no_poll hr h.1 (poll_of_atRest h), ?_⟩
    obtain ⟨hp, hpend, hsync, -, hclk, hdat, hack⟩ := h
    obtain ⟨hclkIn, hdatIn, hackIn⟩ := hpins
    simp only [List.mem_append, or_imp, forall_and] at hsync
    obtain ⟨⟨hclkSync, hdatSync⟩, hackSync⟩ := hsync
    refine ⟨by rw [edge_point, hp], ?_, fun x hx => ?_, ?_, by simp [hclk], by simp [hdat],
      by simp [hack]⟩
    · rw [edge_pendValid, hostAccess_pendValid_of_illegal hr hcmd, hpend]
    · rw [edge_clkSync, edge_datSync, edge_ackSync, hclkIn, hdatIn, hackIn, List.mem_append,
        List.mem_append] at hx
      rcases hx with (hx | hx) | hx
      · exact shiftIn_all_true hclkSync x hx
      · exact shiftIn_all_true hdatSync x hx
      · exact shiftIn_all_true hackSync x hx
    · rw [edge_diPrev]
      exact getLastD_of_all_true hdatSync

/-- If every node of a list answers a next state with a property, so does the list (R161). -/
theorem stepAll_of_forall {Q : State → Prop} {l : List State}
    (h : ∀ s ∈ l, ∃ t, step s = .next t ∧ Q t) :
    ∃ l', stepAll l = .next l' ∧ l'.length = l.length ∧ ∀ t ∈ l', Q t := by
  induction l with
  | nil => exact ⟨[], rfl, rfl, fun t ht => absurd ht List.not_mem_nil⟩
  | cons s l ih =>
    obtain ⟨⟨t, hstep, ht⟩, hl⟩ := List.forall_mem_cons.mp h
    obtain ⟨l', hall, hlen, hl'⟩ := ih hl
    exact ⟨t :: l', by simp only [stepAll, hstep, hall], by simp [hlen],
      List.forall_mem_cons.mpr ⟨ht, hl'⟩⟩

theorem outputs_of_atRest {s : State} (h : s.atRest) :
    s.clkOut = true ∧ s.datOut = true ∧ s.ackOut = true := by
  obtain ⟨-, -, -, -, hout⟩ := h
  exact hout

/-- In a ring at rest every pin is idle, driven or not (R160). -/
theorem wired_of_atRest {r : Ring} (h : ∀ s ∈ r.nodes, s.atRest) (i : Nat) (s : State) :
    r.wired i s = s.withPins true true true := by
  have hnode {o : Option Nat} {u : State} (hu : (o.bind fun k => r.nodes[k]?) = some u) :
      u.clkOut = true ∧ u.datOut = true ∧ u.ackOut = true := by
    obtain ⟨k, -, hk⟩ := Option.bind_eq_some_iff.mp hu
    exact outputs_of_atRest (h u (List.mem_of_getElem? hk))
  unfold Ring.wired
  congr 1
  · cases hu : r.upstream i with
    | none => rfl
    | some u => exact (hnode hu).1
  · cases hu : r.upstream i with
    | none => rfl
    | some u => exact (hnode hu).2.1
  · cases hd : r.downstream i with
    | none => rfl
    | some d => exact (hnode hd).2.2

/-- Settles O53: every node of a ring at rest is wired to idle lines, and so stays at rest. -/
theorem ringAtRestStaysAtRest : Obligations.RingAtRestStaysAtRest := by
  intro r h
  have hnode : ∀ s ∈ r.nodes.mapIdx r.wired, ∃ t, step s = .next t ∧ t.atRest := by
    intro s' hs'
    obtain ⟨i, hi, rfl⟩ := List.mem_mapIdx.mp hs'
    obtain ⟨hrest, hcmd⟩ := h _ (List.getElem_mem hi)
    rw [wired_of_atRest fun s hs => (h s hs).1]
    have hidle : r.nodes[i].busy = false := by
      obtain ⟨hp, hpend, -⟩ := hrest
      simp [State.busy, hp, hpend]
    exact step_of_atRest hrest ⟨rfl, rfl, rfl⟩ fun d hw =>
      (cmdVerdict_illegal_iff hidle d).mpr (hcmd d hw)
  obtain ⟨l, hall, hlen, hl⟩ := stepAll_of_forall hnode
  exact ⟨{ r with nodes := l }, by rw [Ring.step, hall], rfl, by simp [hlen], hl⟩

end Sys2Proof.Proofs

/-! ## How long the micro-programs take (R111, R114, R124)

Every operation is a sequence of timed statements, and the bounds of R145 add up the longest time
each of them can take. The sum of those before a control point is the longest that the operation can
take to come to it; here it stands for the micro-programs that the operations share. -/

namespace Sys2Proof.Proofs
open Sys2Proof.Machine Sys2Proof.Laws

/-! ### `SendByte` (R111) -/

/-- The longest that a `SendByte` can take to come to a control point. -/
def spentInSendByte (b : Build) : SendBytePt → Nat
  | .clockLow j => j.val * (1 + 2 * b.tUnit)
  | .dataLow j => j.val * (1 + 2 * b.tUnit) + 1
  | .clockHigh j => j.val * (1 + 2 * b.tUnit) + 1 + b.tUnit
  | .ackWait => b.cells
  | .ackPulse => b.cells + b.ackTimeout

/-- The bit cells up to `j` and its own fit into the eight of a byte. -/
theorem cell_le (b : Build) (j : Fin 8) :
    j.val * (1 + 2 * b.tUnit) + (1 + 2 * b.tUnit) ≤ b.cells := by
  rw [← Nat.succ_mul]
  exact Nat.mul_le_mul_right _ j.isLt

theorem spentInSendByte_le (b : Build) (q : SendBytePt) :
    spentInSendByte b q + q.limit b ≤ b.sendByteMax := by
  cases q with
  | clockLow j | dataLow j | clockHigh j =>
    have := cell_le b j
    simp only [spentInSendByte, SendBytePt.limit, Build.sendByteMax]
    omega
  | _ => simp only [spentInSendByte, SendBytePt.limit, Build.sendByteMax]; omega

section Spends
variable {t w : State} {G : State → Prop}

/-- A cycle of `SendByte` counts, goes on to a later control point, or returns. -/
theorem goSendByte_spends {a : SendByteAct} {pos : BytePos} {wrap : SendByteAct → Point}
    {ret : Bool → State → State} (hcnt : G (t.tick w))
    (hwrap : ∀ v q, spentInSendByte t.build a.pt + a.pt.limit t.build ≤ spentInSendByte t.build q →
      G (State.enter v (wrap ⟨a.v, q⟩)))
    (hret : ∀ ok v, G (ret ok v)) : G (t.goSendByte w a pos wrap ret) := by
  obtain ⟨v, pt⟩ := a
  have delay_spends {n : Nat} {k : State → State} (hk : G (k w)) : G (t.delay w n k) := by
    rcases delay_cases t w n k with ⟨-, e⟩ | ⟨-, e⟩ <;> rw [e]
    · exact hcnt
    · exact hk
  cases pt with
  | clockLow j =>
    rw [State.goSendByte]
    exact delay_spends (k := fun w => _) (hwrap _ (.dataLow j) le_rfl)
  | dataLow j =>
    rw [State.goSendByte]
    exact delay_spends (k := fun w => _) (hwrap _ (.clockHigh j) le_rfl)
  | clockHigh j =>
    rw [State.goSendByte]
    refine delay_spends ?_
    unfold State.afterCell
    split_ifs with hj hai
    · refine hwrap _ (.clockLow (j + 1)) ?_
      have hnext : (j + 1).val = j.val + 1 := by omega
      simp only [spentInSendByte, SendBytePt.limit, hnext, Nat.succ_mul]
      omega
    · exact hret _ _
    · refine hwrap _ .ackWait ?_
      have := cell_le t.build j
      simp only [spentInSendByte, SendBytePt.limit]
      omega
  | ackWait =>
    rw [State.goSendByte]
    rcases wait_cases t w (!t.ai) t.build.ackTimeout (fun ok w =>
        if ok then State.enter { w with clkOut := true } (wrap ⟨v, .ackPulse⟩)
        else ret false (w.raiseFailure 0x31 pos)) with ⟨-, e⟩ | ⟨-, -, e⟩ | ⟨-, -, e⟩ <;> rw [e]
    · exact hwrap _ .ackPulse le_rfl
    · exact hcnt
    · exact hret _ _
  | ackPulse => exact delay_spends (hret _ _)

/-! ### `RecvByte` (R114) -/

/-- How many waits of a `RecvByte` come before one. -/
def waitIndex : RecvBytePt → Nat
  | .fall j => 2 * j.val
  | .rise j => 2 * j.val + 1
  | .ackRequest => 16
  | .ackRise => 17
  | .ackFall => 18

/-- The longest that a `RecvByte` can take to come to a wait. -/
def spentInRecvByte (b : Build) (q : RecvBytePt) : Nat := waitIndex q * b.edgeTimeout

theorem spentInRecvByte_le (b : Build) (q : RecvBytePt) :
    spentInRecvByte b q + b.edgeTimeout ≤ b.recvByteMax := by
  rw [spentInRecvByte, ← Nat.succ_mul]
  refine Nat.mul_le_mul_right _ ?_
  cases q <;> simp only [waitIndex] <;> omega

/-- The wait after a satisfied one is the next of the 19. -/
theorem waitIndex_afterWait {a a' : RecvByteAct} {di : Level} (h : afterWait a di = some a') :
    waitIndex a'.pt = waitIndex a.pt + 1 := by
  obtain ⟨acc, pt⟩ := a
  cases pt <;> cases h <;> simp only [waitIndex]
  case rise j =>
    split_ifs with hj <;> dsimp only <;> omega

/-- A satisfied wait is followed by the next one, or the last one by the return. -/
theorem afterEdge_cases (t w : State) (a : RecvByteAct) (wrap : RecvByteAct → Point)
    (ret : Byte → Bool → State → State) :
    (∃ v a', afterWait a t.di = some a' ∧ t.afterEdge w a wrap ret = State.enter v (wrap a')) ∨
    ∃ v, t.afterEdge w a wrap ret = ret a.acc true v := by
  obtain ⟨acc, pt⟩ := a
  cases pt with
  | ackFall => exact .inr ⟨_, rfl⟩
  | _ => exact .inl ⟨_, _, rfl, rfl⟩

/-- A cycle of `RecvByte` counts, goes on to a later wait, or returns. -/
theorem goRecvByte_spends {a : RecvByteAct} {pos : BytePos} {wrap : RecvByteAct → Point}
    {ret : Byte → Bool → State → State} (hcnt : G (t.tick w))
    (hwrap : ∀ v a', spentInRecvByte t.build a.pt + t.build.edgeTimeout ≤
      spentInRecvByte t.build a'.pt → G (State.enter v (wrap a')))
    (hret : ∀ ok v, G (ret a.acc ok v)) : G (t.goRecvByte w a pos wrap ret) := by
  rw [State.goRecvByte]
  rcases wait_cases t w (a.pt.met t.ci) t.build.edgeTimeout (fun ok w =>
      if ok then t.afterEdge w a wrap ret else ret a.acc false (w.raiseFailure a.pt.code pos))
    with ⟨-, e⟩ | ⟨-, -, e⟩ | ⟨-, -, e⟩ <;> rw [e]
  · rw [if_pos rfl]
    rcases afterEdge_cases t w a wrap ret with ⟨v, a', ha, e'⟩ | ⟨v, e'⟩ <;> rw [e']
    · refine hwrap v a' ?_
      rw [spentInRecvByte, spentInRecvByte, waitIndex_afterWait ha, Nat.succ_mul]
    · exact hret _ _
  · exact hcnt
  · exact hret _ _

/-! ### `MsgSend` (R124) -/

/-- The longest attempt at a frame of at most `n` bytes. -/
def attemptMax (b : Build) (n : Nat) : Nat := 4 * b.tDelay + n * b.sendByteMax

/-- The longest that an attempt at a frame of at most `n` bytes can take to come to a control point,
whose frame position is `p`. -/
def spentInAttempt (b : Build) (n p : Nat) : MsgSendPt → Nat
  | .start .high => 0
  | .start .low => b.tDelay
  | .byte a => 2 * b.tDelay + p * b.sendByteMax + spentInSendByte b a.pt
  | .stop .clock => 2 * b.tDelay + n * b.sendByteMax
  | .stop .data => 3 * b.tDelay + n * b.sendByteMax

/-- The longest that a `MsgSend` of at most `n` bytes can take to come to a control point. -/
def spentInMsgSend (b : Build) (n : Nat) (m : MsgSendAct) : Nat :=
  (m.attempt - 1) * attemptMax b n + spentInAttempt b n m.p m.pt

/-- The bytes of a frame up to a position and the byte there fit into the frame's. -/
theorem frameBytes_le (b : Build) {p n : Nat} (h : p < n) :
    p * b.sendByteMax + b.sendByteMax ≤ n * b.sendByteMax := by
  rw [← Nat.succ_mul]
  exact Nat.mul_le_mul_right _ h

theorem spentInAttempt_le {s : State} {n : Nat} {m : MsgSendAct} (hm : m.ok s)
    (hn : s.frameCount m.src ≤ n) :
    spentInAttempt s.build n m.p m.pt + m.limit s.build ≤ attemptMax s.build n := by
  obtain ⟨src, attempt, fail, p, pt⟩ := m
  obtain ⟨-, -, hpt⟩ := hm
  cases pt with
  | start q => cases q <;> simp only [spentInAttempt, MsgSendAct.limit, attemptMax] <;> omega
  | stop q => cases q <;> simp only [spentInAttempt, MsgSendAct.limit, attemptMax] <;> omega
  | byte a =>
    have hbytes := frameBytes_le (p := p) s.build (hpt.1.trans_le hn)
    have hbyte := spentInSendByte_le s.build a.pt
    simp only [spentInAttempt, MsgSendAct.limit, attemptMax]
    omega

theorem spentInMsgSend_le {s : State} {n : Nat} {m : MsgSendAct} (hm : m.ok s)
    (hn : s.frameCount m.src ≤ n) :
    spentInMsgSend s.build n m + m.limit s.build ≤ s.build.msgSendMax n := by
  have hattempt := spentInAttempt_le hm hn
  obtain ⟨hpos, hmax, -⟩ := hm
  calc spentInMsgSend s.build n m + m.limit s.build
      ≤ (m.attempt - 1) * attemptMax s.build n + attemptMax s.build n := by
        rw [spentInMsgSend]; omega
    _ = (m.attempt - 1 + 1) * attemptMax s.build n := (Nat.succ_mul _ _).symm
    _ ≤ s.build.retryMax * attemptMax s.build n := Nat.mul_le_mul_right _ (by omega)

/-- A cycle of `MsgSend` counts, goes on to a later control point, or returns. -/
theorem goMsgSend_spends {m : MsgSendAct} {n : Nat} {wrap : MsgSendAct → Point}
    {ret : Bool → State → State} (hm : m.ok t) (hn : t.frameCount m.src ≤ n)
    (hcnt : G (t.tick w))
    (hwrap : ∀ v m', spentInMsgSend t.build n m + m.limit t.build ≤ spentInMsgSend t.build n m' →
      G (State.enter v (wrap m')))
    (hret : ∀ ok v, G (ret ok v)) : G (t.goMsgSend w m wrap ret) := by
  have hattempt := spentInAttempt_le hm hn
  obtain ⟨src, attempt, fail, p, pt⟩ := m
  obtain ⟨hpos, -, hpt⟩ := hm
  cases pt with
  | start q =>
    obtain ⟨rfl, rfl⟩ := hpt
    rw [goMsgSend_start]
    rcases goPhyStart_cases t w q (fun q => wrap ⟨src, attempt, false, 0, .start q⟩) (fun w =>
        t.beginFrameByte w ⟨src, attempt, false, 0, .start q⟩ false 0 wrap)
      with ⟨-, e⟩ | ⟨rfl, e⟩ | ⟨rfl, e⟩ <;> rw [e]
    · exact hcnt
    · refine hwrap _ ⟨src, attempt, false, 0, .start .low⟩ ?_
      simp only [spentInMsgSend, spentInAttempt, MsgSendAct.limit]
      omega
    · refine hwrap _ ⟨src, attempt, false, 0, .byte ⟨_, .clockLow 0⟩⟩ ?_
      simp only [spentInMsgSend, spentInAttempt, MsgSendAct.limit]
      omega
  | byte a =>
    have hbyte := spentInSendByte_le t.build a.pt
    rw [goMsgSend_byte]
    refine goSendByte_spends hcnt (fun v q hq => ?_) fun ok v => ?_
    · refine hwrap _ ⟨src, attempt, fail, p, .byte ⟨a.v, q⟩⟩ ?_
      simp only [spentInMsgSend, spentInAttempt, MsgSendAct.limit]
      omega
    · unfold State.afterByte
      split_ifs with hp
      · refine hwrap _ ⟨src, attempt, _, p + 1, .byte ⟨_, .clockLow 0⟩⟩ ?_
        simp only [spentInMsgSend, spentInAttempt, MsgSendAct.limit, Nat.succ_mul]
        omega
      · refine hwrap _ ⟨src, attempt, _, p, .stop .clock⟩ ?_
        have hbytes := frameBytes_le (p := p) t.build (hpt.1.trans_le hn)
        simp only [spentInMsgSend, spentInAttempt, MsgSendAct.limit]
        omega
  | stop q =>
    rw [goMsgSend_stop]
    rcases goPhyStop_cases t w q (fun q => wrap ⟨src, attempt, fail, p, .stop q⟩) (fun w =>
        t.afterStop w ⟨src, attempt, fail, p, .stop q⟩ wrap ret)
      with ⟨-, e⟩ | ⟨rfl, e⟩ | ⟨rfl, e⟩ <;> rw [e]
    · exact hcnt
    · refine hwrap _ ⟨src, attempt, fail, p, .stop .data⟩ ?_
      simp only [spentInMsgSend, spentInAttempt, MsgSendAct.limit]
      omega
    · unfold State.afterStop
      split_ifs
      · exact hret _ _
      · exact hret _ _
      · refine hwrap _ ⟨src, attempt + 1, false, 0, .start .high⟩ ?_
        calc spentInMsgSend t.build n ⟨src, attempt, fail, p, .stop .data⟩ + t.build.tDelay
            ≤ (attempt - 1) * attemptMax t.build n + attemptMax t.build n := by
              rw [spentInMsgSend, Nat.add_assoc]; exact Nat.add_le_add_left hattempt _
          _ = (attempt - 1 + 1) * attemptMax t.build n := (Nat.succ_mul _ _).symm
          _ = attempt * attemptMax t.build n := by rw [Nat.sub_add_cancel hpos]

end Spends

end Sys2Proof.Proofs

/-! ## The time that an operation has spent (R145)

A cycle of a running operation ends it or raises the time it has spent, which stays below its bound.
-/

namespace Sys2Proof.Proofs
open Sys2Proof.Machine Sys2Proof.Laws

/-- The longest that a reception can take to come to a control point; `l` bounds an oversize payload
that is drained. -/
def spentInReceive (b : Build) (l : Nat) : MsgReceivePt → Nat
  | .length a => spentInRecvByte b a.pt
  | .recipient a => b.recvByteMax + spentInRecvByte b a.pt
  | .sender a => 2 * b.recvByteMax + spentInRecvByte b a.pt
  | .drain k a => (3 + k) * b.recvByteMax + spentInRecvByte b a.pt
  | .oversizeStop .clock => (3 + l) * b.recvByteMax
  | .oversizeStop .data => (3 + l) * b.recvByteMax + b.tDelay
  | .oversizeSettle => (3 + l) * b.recvByteMax + 2 * b.tDelay
  | .payload k a => (3 + k) * b.recvByteMax + spentInRecvByte b a.pt
  | .stop .clock => (3 + b.maxLen) * b.recvByteMax
  | .stop .data => (3 + b.maxLen) * b.recvByteMax + b.tDelay
  | .settle => (3 + b.maxLen) * b.recvByteMax + 2 * b.tDelay
  | .relayBefore => b.msgReceiveMax b.maxLen
  | .relay m => b.msgReceiveMax b.maxLen + b.tSettle + spentInMsgSend b (3 + b.maxLen) m
  | .relayAfter => b.msgReceiveMax b.maxLen + b.tSettle + b.msgSendMax (3 + b.maxLen)

/-- The longest that an operation can take to come to a control point; `n` bounds the frame of a
SEND_MSG and `l` an oversize payload that is drained. -/
def spent (b : Build) (l n : Nat) : Point → Nat
  | .idle => 0
  | .phyStart .high => 0
  | .phyStart .low => b.tDelay
  | .phyStop .clock => 0
  | .phyStop .data => b.tDelay
  | .sendByte a => spentInSendByte b a.pt
  | .recvByte a => spentInRecvByte b a.pt
  | .sendMsg m => spentInMsgSend b n m
  | .receive q => spentInReceive b l q

/-- The bound of the operation at a control point (R145); of a reception it is the one with a relay
only once it relays. -/
def deadline (b : Build) (l n : Nat) : Point → Nat
  | .idle => 0
  | .phyStart _ => 2 * b.tDelay
  | .phyStop _ => 2 * b.tDelay
  | .sendByte _ => b.sendByteMax
  | .recvByte _ => b.recvByteMax
  | .sendMsg _ => b.msgSendMax n
  | .receive (.drain _ _) => b.msgReceiveMax l
  | .receive (.oversizeStop _) => b.msgReceiveMax l
  | .receive .oversizeSettle => b.msgReceiveMax l
  | .receive .relayBefore => b.relayMax
  | .receive (.relay _) => b.relayMax
  | .receive .relayAfter => b.relayMax
  | .receive _ => b.msgReceiveMax b.maxLen

/-- The frame of a SEND_MSG has at most `n` bytes, and a drain comes only if `l` bounds every
payload. -/
structure Fits (l n : Nat) (s : State) : Prop where
  send : ∀ m, s.point = .sendMsg m → s.frameCount .tx ≤ n
  drain : ∀ k a, s.point = .receive (.drain k a) → 255 ≤ l

/-- From `s` to `u` the operation ends, or it has spent one cycle more. -/
def Advances (l n : Nat) (s u : State) : Prop :=
  u.point = .idle ∨
    spent s.build l n s.point + s.cnt + 1 ≤ spent s.build l n u.point + u.cnt

section Advances
variable {s u : State} {l n : Nat}

theorem advances_tick : Advances l n s (s.tick s.edge) :=
  .inr (by rw [tick_point, edge_point, tick_cnt]; exact le_rfl)

/-- The next timed statement begins, after the longest that the last one can take. -/
theorem advances_of_spent (hs : s.Inv)
    (h : spent s.build l n s.point + s.point.limit s.build ≤ spent s.build l n u.point) :
    Advances l n s u :=
  .inr (by have := hs.cnt_ok; omega)

/-- The time that a reception has spent when a byte of it is received. -/
theorem spentInReceive_of_byte {q : MsgReceivePt} {a : RecvByteAct} {pos : Nat}
    (hq : q.byte? = some (a, pos)) (b : Build) :
    spentInReceive b l q = pos * b.recvByteMax + spentInRecvByte b a.pt := by
  cases q <;> cases hq <;> simp [spentInReceive]

/-- What follows a byte of a reception begins after the longest that the bytes so far can take. -/
theorem afterReception_spent {t w : State} {q : MsgReceivePt} {a : RecvByteAct} {pos : Nat}
    (hq : q.byte? = some (a, pos)) (hok : q.ok t) (hl : ∀ k a, q = .drain k a → 255 ≤ l)
    (v : Byte) : (afterReception t q v w).point = .idle ∨
      (pos + 1) * t.build.recvByteMax ≤ spent t.build l n (afterReception t q v w).point := by
  have bytes_le {c d : Nat} (h : pos + 1 ≤ c) :
      (pos + 1) * t.build.recvByteMax ≤ c * t.build.recvByteMax + d :=
    (Nat.mul_le_mul_right _ h).trans (Nat.le_add_right _ _)
  cases q <;> cases hq
  case length =>
    exact .inr (Nat.le_add_right_of_le (by rw [Nat.one_mul]))
  case recipient =>
    exact .inr (bytes_le le_rfl)
  case sender =>
    rw [afterReception, validate_point]
    split_ifs
    · exact .inl rfl
    · exact .inr (bytes_le le_rfl)
    · exact .inr (bytes_le (d := 0) (Nat.le_add_right 3 l))
    · exact .inr (bytes_le (d := 0) (Nat.le_add_right 3 _))
    · exact .inr (bytes_le le_rfl)
  case drain k =>
    obtain ⟨-, hk, -⟩ := hok
    have hbyte := t.frameLen.isLt
    have hfits := hl k a rfl
    rw [afterReception, drainFrom_point]
    split_ifs
    · exact .inr (bytes_le le_rfl)
    · exact .inr (bytes_le (d := 0) (by omega))
  case payload k =>
    obtain ⟨hlen, hk, -⟩ := hok
    rw [afterReception, payloadFrom_point]
    split_ifs
    · exact .inr (bytes_le le_rfl)
    · exact .inr (bytes_le (d := 0) (by omega))

theorem dispose_spent (t w : State) : (t.dispose w).point = .idle ∨
    spent t.build l n (.receive .settle) + t.build.tSettle ≤
      spent t.build l n (t.dispose w).point := by
  unfold State.dispose
  split_ifs
  · exact .inl rfl
  · exact .inr le_rfl
  · exact .inr (Nat.le_add_right_of_le (Nat.le_add_right _ _))
  · exact .inl rfl

theorem goMsgReceive_advances {q : MsgReceivePt} (hs : s.Inv) (hp : s.point = .receive q)
    (hfits : Fits l n s) : Advances l n s (s.goMsgReceive s.edge q) := by
  have hok : q.ok s := by have := hs.point_ok; rwa [hp] at this
  have leads {v : State} (h : spentInReceive s.build l q + q.limit s.build ≤
      spent s.build l n v.point) : Advances l n s v :=
    advances_of_spent hs (by rw [hp]; exact h)
  have settles {k : State → State} (hk : Advances l n s (k s.edge)) :
      Advances l n s (s.delay s.edge s.build.tSettle k) := by
    rcases delay_cases s s.edge s.build.tSettle k with ⟨-, e⟩ | ⟨-, e⟩ <;> rw [e]
    · exact advances_tick
    · exact hk
  cases hq : q.byte? with
  | some b =>
    obtain ⟨a, pos⟩ := b
    rw [goMsgReceive_of_byte s s.edge hq]
    have hspent := spentInReceive_of_byte (l := l) hq s.build
    have hlimit := byteWait_limit hq s.build
    refine goRecvByte_spends advances_tick (fun v a' ha => leads ?_) fun ok v => ?_
    · have hspent' := spentInReceive_of_byte (l := l) (byte_atByte hq a') s.build
      simp only [enter_point, spent]
      omega
    · rcases afterReception_spent (w := v) (n := n) hq hok
        (fun k a e => hfits.drain k a (by rw [hp, e])) a.acc with hidle | hnext
      · exact .inl hidle
      · have hbyte := spentInRecvByte_le s.build a.pt
        rw [Nat.succ_mul] at hnext
        exact leads (by omega)
  | none =>
    cases q with
    | length | recipient | sender | drain | payload => cases hq
    | oversizeStop p | stop p =>
      rw [State.goMsgReceive]
      refine (goPhyStop_cases _ _ p _ _).elim (fun h => h.2 ▸ advances_tick) fun h => ?_
      rcases h with ⟨rfl, e⟩ | ⟨rfl, e⟩ <;> rw [e]
      · exact leads le_rfl
      · refine leads ?_
        simp only [enter_point, spent, spentInReceive, MsgReceivePt.limit]
        omega
    | oversizeSettle | relayAfter => exact settles (.inl rfl)
    | settle =>
      refine settles ?_
      rcases dispose_spent (l := l) (n := n) s s.edge with hidle | hnext
      · exact .inl hidle
      · exact leads hnext
    | relayBefore => exact settles (leads (Nat.le_add_right _ _))
    | relay m =>
      obtain ⟨⟨-, -, -, hlen⟩, hframe, hm⟩ := hok
      have hcount : s.frameCount m.src ≤ 3 + s.build.maxLen := by
        rw [hframe]
        exact Nat.add_le_add_left hlen 3
      have hmsg := spentInMsgSend_le hm hcount
      rw [State.goMsgReceive]
      refine goMsgSend_spends hm hcount advances_tick (fun v m' hm' => leads ?_) fun ok v => ?_
      · simp only [enter_point, spent, spentInReceive, MsgReceivePt.limit]
        omega
      · unfold State.afterRelay
        split_ifs
        · refine leads ?_
          simp only [enter_point, spent, spentInReceive, MsgReceivePt.limit]
          omega
        · exact .inl rfl

/-- A cycle of a running operation ends it, or spends a cycle of its bound (R145). -/
theorem resume_advances (hs : s.Inv) (hne : s.point ≠ .idle) (hfits : Fits l n s) :
    Advances l n s (s.resume s.edge) := by
  have hok := hs.point_ok
  have leads {v : State} (h : spent s.build l n s.point + s.point.limit s.build ≤
      spent s.build l n v.point) : Advances l n s v := advances_of_spent hs h
  unfold State.resume
  cases hp : s.point with
  | idle => exact absurd hp hne
  | phyStart q =>
    rw [hp] at leads
    rcases goPhyStart_cases s s.edge q .phyStart (fun w => w.endCommand false)
      with ⟨-, e⟩ | ⟨rfl, e⟩ | ⟨rfl, e⟩ <;> simp only [e]
    · exact advances_tick
    · exact leads (Nat.zero_add _).le
    · exact .inl rfl
  | phyStop q =>
    rw [hp] at leads
    rcases goPhyStop_cases s s.edge q .phyStop (fun w => w.endCommand false)
      with ⟨-, e⟩ | ⟨rfl, e⟩ | ⟨rfl, e⟩ <;> simp only [e]
    · exact advances_tick
    · exact leads (Nat.zero_add _).le
    · exact .inl rfl
  | sendByte a =>
    rw [hp] at leads
    exact goSendByte_spends advances_tick (fun _ _ h => leads h) fun _ _ => .inl rfl
  | recvByte a =>
    rw [hp] at leads
    exact goRecvByte_spends advances_tick (fun _ _ h => leads h) fun _ _ => .inl rfl
  | sendMsg m =>
    rw [hp] at leads hok
    obtain ⟨-, htx, hm⟩ := hok
    have hcount : s.frameCount m.src ≤ n := by rw [htx]; exact hfits.send m hp
    exact goMsgSend_spends hm hcount advances_tick (fun _ _ h => leads h) fun _ _ => .inl rfl
  | receive q => exact goMsgReceive_advances hs hp hfits

/-- A byte of a reception with at most `m` payload bytes ends within the reception's bound. -/
theorem receivedByte_le (b : Build) {pos m : Nat} (h : pos < 3 + m) (q : RecvBytePt) :
    pos * b.recvByteMax + spentInRecvByte b q + b.edgeTimeout ≤ b.msgReceiveMax m := by
  have hbyte := spentInRecvByte_le b q
  have hbytes : (pos + 1) * b.recvByteMax ≤ (3 + m) * b.recvByteMax := Nat.mul_le_mul_right _ h
  rw [Nat.succ_mul] at hbytes
  rw [Build.msgReceiveMax]
  omega

theorem spentInReceive_add_limit_le {q : MsgReceivePt} (hok : q.ok s)
    (hl : ∀ k a, q = .drain k a → 255 ≤ l) :
    spentInReceive s.build l q + q.limit s.build ≤ deadline s.build l n (.receive q) := by
  cases q with
  | length a | recipient a | sender a =>
    rw [spentInReceive_of_byte rfl]
    exact receivedByte_le s.build (by omega) a.pt
  | drain k a =>
    obtain ⟨-, hk, -⟩ := hok
    have hbyte := s.frameLen.isLt
    have hfits := hl k a rfl
    exact receivedByte_le s.build (by omega) a.pt
  | payload k a =>
    obtain ⟨hlen, hk, -⟩ := hok
    exact receivedByte_le s.build (by omega) a.pt
  | oversizeStop p | stop p =>
    cases p <;>
      simp only [spentInReceive, MsgReceivePt.limit, deadline, Build.msgReceiveMax] <;> omega
  | oversizeSettle | settle => exact le_rfl
  | relay m =>
    obtain ⟨⟨-, -, -, hlen⟩, hframe, hm⟩ := hok
    have hmsg := spentInMsgSend_le hm (n := 3 + s.build.maxLen) (by
      rw [hframe]
      exact Nat.add_le_add_left hlen 3)
    simp only [spentInReceive, MsgReceivePt.limit, deadline, Build.relayMax]
    omega
  | relayBefore | relayAfter =>
    simp only [spentInReceive, MsgReceivePt.limit, deadline, Build.relayMax]
    omega

/-- Every timed statement of an operation ends within the operation's bound (R145). -/
theorem spent_add_limit_le (hs : s.Inv) (hne : s.point ≠ .idle) (hfits : Fits l n s) :
    spent s.build l n s.point + s.point.limit s.build ≤ deadline s.build l n s.point := by
  have hok := hs.point_ok
  cases hp : s.point with
  | idle => exact absurd hp hne
  | phyStart q => cases q <;> simp only [spent, Point.limit, deadline] <;> omega
  | phyStop q => cases q <;> simp only [spent, Point.limit, deadline] <;> omega
  | sendByte a => exact spentInSendByte_le s.build a.pt
  | recvByte a => exact spentInRecvByte_le s.build a.pt
  | sendMsg m =>
    rw [hp] at hok
    obtain ⟨-, htx, hm⟩ := hok
    exact spentInMsgSend_le hm (by rw [htx]; exact hfits.send m hp)
  | receive q =>
    rw [hp] at hok
    exact spentInReceive_add_limit_le hok fun k a e => hfits.drain k a (by rw [hp, e])

end Advances

/-! ### Runs within a bound -/

/-- What the environment drives in `n + 1` cycles, now and in the `n` after. -/
theorem env_succ {env : Input → Prop} (hundriven : env Input.undriven) {s : State} {n : Nat}
    (h : ∀ i ∈ s.inputs.take (n + 1), env i) : env s.now ∧ ∀ i ∈ s.inputs.tail.take n, env i := by
  unfold State.now
  cases hi : s.inputs with
  | nil => exact ⟨hundriven, by simp⟩
  | cons x xs =>
    rw [hi, List.take_succ_cons, List.forall_mem_cons] at h
    exact h

/-- A running operation comes to a `goal` if every cycle leads to one or takes `P n`, which speaks
of its first `n` cycles, on to `P (n + 1)`, and `P n` does not hold for `n` at or above `d`. -/
theorem reaches_goal {P goal : Nat → State → Prop} {env : Input → Prop} {d : Nat}
    (hundriven : env Input.undriven) (hreset : ∀ i, env i → i.rst = false)
    (hbound : ∀ n x, P n x → x.point ≠ .idle ∧ n < d)
    (hnext : ∀ n x y, P n x → env x.now → step x = .next y → goal (n + 1) y ∨ P (n + 1) y)
    {n : Nat} {s : State} (hs : P n s) (henv : ∀ i ∈ s.inputs.take (d - n), env i) :
    ∃ m u, run m s = .next u ∧ goal (n + m) u := by
  induction hk : d - n generalizing n s with
  | zero =>
    obtain ⟨-, hlt⟩ := hbound n s hs
    omega
  | succ k ih =>
    rw [hk] at henv
    obtain ⟨hnow, hrest⟩ := env_succ hundriven henv
    have hr := hreset s.now hnow
    have hstep := step_of_running hr (hbound n s hs).1
    obtain ⟨-, -, -, -, -, hin⟩ := step_environment hr hstep
    rcases hnext n s _ hs hnow hstep with hgoal | hP
    · exact ⟨1, _, run_succ_of_step hstep, hgoal⟩
    · have hk' : d - (n + 1) = k := by omega
      obtain ⟨m, u, hu, hgoal⟩ := ih hP (by rw [hin, hk']; exact hrest) hk'
      exact ⟨m + 1, u, (run_succ_of_step hstep).trans hu, by
        rwa [Nat.add_assoc, Nat.add_comm 1] at hgoal⟩

/-- An operation is running that has run for at most the time that its control point allows. -/
structure Underway (l n c : Nat) (x : State) : Prop where
  inv : x.Inv
  running : x.point ≠ .idle
  fits : Fits l n x
  time : c ≤ spent x.build l n x.point + x.cnt

theorem Underway.lt_deadline {l n c : Nat} {x : State} (h : Underway l n c x) :
    c < deadline x.build l n x.point :=
  h.time.trans_lt ((Nat.add_lt_add_left h.inv.cnt_ok _).trans_le
    (spent_add_limit_le h.inv h.running h.fits))

theorem Underway.next {l n c : Nat} {x y : State} (h : Underway l n c x) (hr : x.now.rst = false)
    (hstep : step x = .next y) (hne : y.point ≠ .idle) (hfits : Fits l n y) :
    Underway l n (c + 1) y := by
  obtain ⟨hinv, hbuild⟩ := stepKeepsTheInvariant x y h.inv hstep
  refine ⟨hinv, hne, hfits, ?_⟩
  cases hstep.symm.trans (step_of_running hr h.running)
  rcases resume_advances h.inv h.running h.fits with hidle | hspent
  · exact absurd hidle hne
  · rw [hbuild]
    exact (Nat.add_le_add_right h.time 1).trans hspent

/-- An operation ends within `d` cycles if it keeps a property `K` while it runs under which its
bound is at most `d`. -/
theorem ends_within {K : State → Prop} {l n c d : Nat} {s : State} (hs : s.Inv)
    (hne : s.point ≠ .idle) (hK : K s) (hc : c ≤ spent s.build l n s.point + s.cnt)
    (hkeeps : ∀ x y, K x → x.point ≠ .idle → x.now.rst = false → step x = .next y →
      y.point ≠ .idle → K y)
    (hfits : ∀ x, x.Inv → K x → Fits l n x)
    (hdeadline : ∀ x, K x → deadline x.build l n x.point ≤ d)
    (hreset : s.noReset (d - c)) :
    ∃ m u, c + m ≤ d ∧ run m s = .next u ∧ u.point = .idle := by
  obtain ⟨m, u, hu, hle, hidle⟩ := reaches_goal
    (P := fun c x => Underway l n c x ∧ K x) (goal := fun c x => c ≤ d ∧ x.point = .idle)
    (env := fun i => i.rst = false) rfl (fun _ h => h)
    (fun c x h => ⟨h.1.running, h.1.lt_deadline.trans_le (hdeadline x h.2)⟩)
    (fun c x y h hr hstep => by
      obtain ⟨hx, hKx⟩ := h
      by_cases hidle : y.point = .idle
      · exact .inl ⟨hx.lt_deadline.trans_le (hdeadline x hKx), hidle⟩
      · have hKy := hkeeps x y hKx hx.running hr hstep hidle
        have hy := (stepKeepsTheInvariant x y hx.inv hstep).1
        exact .inr ⟨hx.next hr hstep hidle (hfits y hy hKy), hKy⟩)
    ⟨⟨hs, hne, hfits s hs hK, hc⟩, hK⟩ hreset
  exact ⟨m, u, hle, hu, hidle⟩

end Sys2Proof.Proofs

/-! ## Every operation ends (R144, R145) -/

namespace Sys2Proof.Proofs
open Sys2Proof.Machine Sys2Proof.Laws

/-! ### The longest operation (R144) -/

theorem maxLen_le {b : Build} (h : b.wf = true) : b.maxLen ≤ 255 := by
  simp only [Build.wf, Bool.and_eq_true, decide_eq_true_eq] at h
  omega

theorem msgReceiveMax_mono (b : Build) {m n : Nat} (h : m ≤ n) :
    b.msgReceiveMax m ≤ b.msgReceiveMax n := by
  have hbytes : (3 + m) * b.recvByteMax ≤ (3 + n) * b.recvByteMax :=
    Nat.mul_le_mul_right _ (Nat.add_le_add_left h 3)
  simp only [Build.msgReceiveMax]
  omega

theorem msgReceiveMax_le_relayMax (b : Build) : b.msgReceiveMax b.maxLen ≤ b.relayMax := by
  rw [Build.relayMax]
  omega

/-- One byte of one attempt is the least that a `MsgSend` can send. -/
theorem sendByteMax_le_msgSendMax {b : Build} (h : b.wf = true) {n : Nat} (hn : 0 < n) :
    b.sendByteMax ≤ b.msgSendMax n :=
  calc b.sendByteMax
      ≤ n * b.sendByteMax := Nat.le_mul_of_pos_left _ hn
    _ ≤ attemptMax b n := Nat.le_add_left _ _
    _ ≤ b.msgSendMax n := Nat.le_mul_of_pos_left _ (retryMax_pos h)

/-- Of the bounds of R145 one of a reception's is the longest, with or without a relay. -/
theorem deadline_le_longest {b : Build} (h : b.wf = true) (p : Point) :
    deadline b 255 (3 + b.maxLen) p ≤ max (b.msgReceiveMax 255) b.relayMax := by
  have hrelay := msgReceiveMax_le_relayMax b
  have hsend : b.msgSendMax (3 + b.maxLen) ≤ b.relayMax := Nat.le_add_left _ _
  have hreceive : b.recvByteMax + 2 * b.tDelay ≤ b.msgReceiveMax 255 := by
    rw [Build.msgReceiveMax]
    omega
  cases p with
  | sendByte a =>
    have := sendByteMax_le_msgSendMax h (n := 3 + b.maxLen) (by omega)
    simp only [deadline]
    omega
  | receive q => cases q <;> simp only [deadline] <;> omega
  | _ => simp only [deadline]; omega

theorem fits_of_inv {s : State} (h : s.Inv) : Fits 255 (3 + s.build.maxLen) s where
  send m hp := by
    have hok := h.point_ok
    rw [hp] at hok
    exact Nat.add_le_add_left hok.1 3
  drain _ _ _ := le_rfl

/-- A pending opcode is decoded as a command word with RSV = 0000 (R72, R90). -/
theorem decodeCmd_zero_append (op : BitVec 4) : decodeCmd (0#4 ++ op) = decodeOp op := by
  have hrsv : cmdRsv (0#4 ++ op) = 0#4 := by revert op; decide
  have hop : cmdOp (0#4 ++ op) = op := by revert op; decide
  rw [decodeCmd, if_pos hrsv, hop]

/-- In the invariant `IDLE_POLL` fetches no reserved opcode (R94, R95). -/
theorem poll_legal {s : State} (h : s.Inv) (e : DecodeError) : s.poll ≠ some (.rejected e) := by
  by_cases hstart : s.autoRx = true ∧ s.startDet = true
  · rw [poll_of_start hstart.1 hstart.2]
    nofun
  · rw [poll_of_no_start hstart]
    split_ifs
    · obtain ⟨i, hi⟩ := (decodeOp_decodes_iff s.pendOp).mpr h.pendOp_ok
      rw [decodeCmd_zero_append, hi]
      nofun
    · nofun

/-- No state of the invariant is stuck (R144). -/
theorem step_answers {s : State} (h : s.Inv) : ∃ t, step s = .next t := by
  cases hr : s.now.rst with
  | true => exact ⟨s.resetEdge, if_pos hr⟩
  | false =>
    by_cases hp : s.point = .idle
    · cases hpoll : s.poll with
      | none => exact ⟨s.edge, step_of_no_poll hr hp hpoll⟩
      | some d =>
        cases d with
        | instr i => exact ⟨_, step_of_starts ⟨hr, hp, hpoll⟩⟩
        | rejected e => exact absurd hpoll (poll_legal h e)
    · exact ⟨_, step_of_running hr hp⟩

/-- Settles O51: the running operation ends within its bound. -/
theorem blockAlwaysReturnsToIdle : Obligations.BlockAlwaysReturnsToIdle := by
  intro s hs n hreset
  refine ⟨step_answers hs, ?_⟩
  by_cases hp : s.point = .idle
  · exact ⟨0, s, Nat.zero_le n, rfl, hp⟩
  · obtain ⟨m, u, hle, hu, hidle⟩ := ends_within (K := fun x => x.build = s.build) (c := 0) (d := n)
      (l := 255) (n := 3 + s.build.maxLen) hs hp rfl (Nat.zero_le _)
      (fun x y hb _ hr hstep _ => (step_environment hr hstep).1.trans hb)
      (fun x hx hb => hb ▸ fits_of_inv hx)
      (fun x hb => by rw [hb]; exact deadline_le_longest hs.build_ok x.point) hreset
    exact ⟨m, u, by omega, hu, hidle⟩

/-! ### The bound of each operation (R145) -/

theorem Cycle.txLen {t w u : State} {p : Point} (h : Cycle t w p u) : u.txLen = w.txLen := by
  cases h <;> simp

/-- A running operation leaves TX_LEN alone, whatever the host writes (R60). -/
theorem txLen_of_running {x y : State} (hne : x.point ≠ .idle) (hr : x.now.rst = false)
    (hstep : step x = .next y) : y.txLen = x.txLen := by
  cases hstep.symm.trans (step_of_running hr hne)
  rw [(resume_cycle x x.edge hne).txLen, (sameSources_recordFailure _ _).txLen,
    (sameSources_edge (busy_of_point hne)).txLen]

/-- A command that runs ends within its bound. -/
theorem command_ends {i : Instr} {x : State} {d : Nat} (hx : x.Inv) (hi : x.point.instr = some i)
    (hcmd : i ≠ .msgReceive)
    (hdeadline : ∀ p, p.instr = some i → deadline x.build 0 (x.frameCount .tx) p ≤ d)
    (hreset : x.noReset d) : ∃ m u, m ≤ d ∧ run m x = .next u ∧ u.point = .idle := by
  have running {p : Point} (h : p.instr = some i) : p ≠ .idle := by rintro rfl; cases h
  obtain ⟨m, u, hle, hu, hidle⟩ := ends_within (c := 0) (d := d) (l := 0) (n := x.frameCount .tx)
    (K := fun y => y.build = x.build ∧ y.txLen = x.txLen ∧ y.point.instr = some i) hx (running hi)
    ⟨rfl, rfl, hi⟩ (Nat.zero_le _)
    (fun y z ⟨hb, hl, hp⟩ hne hr hstep hz => by
      obtain ⟨-, t, ht, hgo⟩ := runningOperationGoesOn y i hr hne
      cases hstep.symm.trans ht
      exact ⟨(step_environment hr hstep).1.trans hb, (txLen_of_running hne hr hstep).trans hl,
        (hgo.resolve_left hz).trans hp⟩)
    (fun y _ ⟨_, hl, hp⟩ => ⟨fun m _ => by simp only [State.frameCount, hl, le_rfl], fun k a h => by
      rw [h] at hp
      exact absurd (Option.some.inj hp).symm hcmd⟩)
    (fun y ⟨hb, _, hp⟩ => by rw [hb]; exact hdeadline y.point hp) hreset
  exact ⟨m, u, by omega, hu, hidle⟩

/-- The control point is inside a reception, before its relay and the bracket of it. -/
def beforeRelay (p : Point) : Prop := p.inReceive = true ∧ p.relaying = false

/-- A relay, or its first bracket, follows the settle delay. -/
theorem Cycle.settle_of_relaying {t w u : State} {p : Point} (h : Cycle t w p u) (hw : w.point = p)
    (hp : p.relaying = false) (hu : u.point.relaying = true) : p = .receive .settle := by
  cases h with
  | tick => rw [tick_point, hw, hp] at hu; cases hu
  | byteWait q a pos a' ack hq => cases q <;> cases hq <;> cases hu
  | oversizeNext p q' dat hq | stopNext p q' dat hq => rcases hq with ⟨p', rfl⟩ | rfl <;> cases hu
  | bracket => rfl
  | relayStart q hq =>
    rcases hq with rfl | ⟨rfl, -⟩
    · cases hp
    · rfl
  | relay | relayBracket => cases hp
  | _ => cases hu

/-- A relay ends with its reception. -/
theorem Cycle.idle_of_relaying {t w u : State} {p : Point} (h : Cycle t w p u) (hw : w.point = p)
    (hp : p.relaying = true) : u.point = .idle ∨ u.point.relaying = true := by
  cases h with
  | tick => exact .inr (by rw [tick_point, hw, hp])
  | byteWait q a pos a' ack hq => cases q <;> cases hq <;> cases hp
  | relayStart | relay | relayBracket => exact .inr rfl
  | relayEnd | relayAfterEnd => exact .inl rfl
  | _ => cases hp

/-- A running cycle, with its failure recorded. -/
theorem cycle_of_running {x y : State} (hne : x.point ≠ .idle) (hr : x.now.rst = false)
    (hstep : step x = .next y) :
    Cycle x (recordFailure x.edge (x.point.failure x)) x.point y ∧
      (recordFailure x.edge (x.point.failure x)).point = x.point := by
  cases hstep.symm.trans (step_of_running hr hne)
  exact ⟨resume_cycle x x.edge hne, (recordFailure_point _ _).trans (edge_point x)⟩

/-- A drain follows the header of the message. -/
theorem Cycle.of_drain {t w u : State} {p : Point} {k : Nat} {a : RecvByteAct} (h : Cycle t w p u)
    (hw : w.point = p) (hu : u.point = .receive (.drain k a)) :
    (∃ b, p = .receive (.sender b)) ∨ ∃ j b, p = .receive (.drain j b) := by
  cases h with
  | tick => exact .inr ⟨k, a, hw.symm.trans hu⟩
  | byteWait q b pos a' ack hq =>
    cases q <;> cases hq <;> cases hu
    exact .inr ⟨_, _, rfl⟩
  | oversizeDrain b => exact .inl ⟨b, rfl⟩
  | drainNext j b => exact .inr ⟨j, b, rfl⟩
  | oversizeNext p q' dat hq | stopNext p q' dat hq => rcases hq with ⟨p', rfl⟩ | rfl <;> cases hu
  | _ => cases hu

theorem drainOversize_of_validate {t w : State} {k : Nat} {a : RecvByteAct}
    (h : (t.validate w).point = .receive (.drain k a)) : t.drainOversize = true := by
  by_contra hno
  rw [validate_point, if_neg hno] at h
  split_ifs at h <;> cases h

/-- A drain begins with CONFIG.DRAIN_OVERSIZE at 1 (R132). -/
theorem drainOversize_of_drain {x y : State} {k : Nat} {a : RecvByteAct} (hne : x.point ≠ .idle)
    (hr : x.now.rst = false) (hstep : step x = .next y) (hy : y.point = .receive (.drain k a)) :
    x.drainOversize = true ∨ ∃ j b, x.point = .receive (.drain j b) := by
  obtain ⟨hc, hpoint⟩ := cycle_of_running hne hr hstep
  refine (hc.of_drain hpoint hy).imp_left ?_
  rintro ⟨b, hp⟩
  cases hstep.symm.trans (step_of_running hr hne)
  rw [resume_of_byte (q := .sender b) hp rfl] at hy
  revert hy
  refine goRecvByte_spends (G := fun v => v.point = .receive (.drain k a) → x.drainOversize = true)
    (fun h => ?_) (fun v b' _ h => nomatch h) fun ok v h => drainOversize_of_validate h
  rw [tick_point, edge_point, hp] at h
  cases h

/-! ### A reception with its relay (R145) -/

/-- A reception that has not come to its relay has the bound of one without. -/
theorem deadline_of_beforeRelay {b : Build} {l : Nat} {p : Point} (hp : beforeRelay p)
    (hl : b.maxLen ≤ l) : deadline b l 0 p ≤ b.msgReceiveMax l := by
  have hmono := msgReceiveMax_mono b hl
  obtain ⟨hrec, hrelay⟩ := hp
  cases p with
  | receive q =>
    cases q with
    | relayBefore | relay | relayAfter => cases hrelay
    | oversizeStop | oversizeSettle | drain => exact le_rfl
    | _ => exact hmono
  | _ => cases hrec

/-- A reception stands in `x` that has run for `c` cycles and has not come to its relay; build and
CONFIG.DRAIN_OVERSIZE are those of `t`. -/
structure Receiving (l c : Nat) (t x : State) : Prop where
  underway : Underway l 0 c x
  before : beforeRelay x.point
  build : x.build = t.build
  drainOversize : x.drainOversize = t.drainOversize

section Receiving
variable {l c : Nat} {t x y : State}

theorem receives_of_beforeRelay (h : beforeRelay x.point) : receives x := by
  obtain ⟨hrec, hrelay⟩ := h
  refine ⟨hrec, ?_⟩
  cases hp : x.point with
  | receive q =>
    cases q with
    | relay m => rw [hp] at hrelay; cases hrelay
    | _ => rfl
  | _ => rw [hp] at hrec; cases hrec

/-- As long as a reception neither ends nor relays, and the host does not write. -/
theorem Receiving.next (h : Receiving l c t x) (hdrain : t.drainOversize = true → 255 ≤ l)
    (hr : x.now.rst = false) (hwrite : (x.now.hSel && x.now.hWe) = false)
    (hstep : step x = .next y) (hne : y.point ≠ .idle) (hrelay : y.point.relaying = false) :
    Receiving l (c + 1) t y := by
  obtain ⟨hx, hbefore, hbuild, hconfig⟩ := h
  have hrec := receives_of_beforeRelay hbefore
  obtain ⟨q, hp⟩ := hrec.point_eq
  obtain ⟨hc, hpoint⟩ := cycle_of_running hx.running hr hstep
  obtain ⟨q', hp'⟩ : ∃ q', y.point = .receive q' :=
    point_of_msgReceive (((hc.idle_or_same_instr hpoint).resolve_left hne).trans (by rw [hp]; rfl))
  have hfits : Fits l 0 y := by
    refine ⟨fun m hm => ?_, fun k a hk => ?_⟩
    · cases hp'.symm.trans hm
    · rcases drainOversize_of_drain hx.running hr hstep hk with hd | ⟨j, b, hj⟩
      · exact hdrain (hconfig ▸ hd)
      · exact hx.fits.drain j b hj
  refine ⟨hx.next hr hstep hne hfits, ⟨by rw [hp']; rfl, hrelay⟩,
    (step_environment hr hstep).1.trans hbuild, ?_⟩
  rw [← hconfig, State.drainOversize, State.drainOversize,
    (hrec.undisturbed hr hstep hwrite).config]

/-- `m` cycles after `t` a reception has ended in `u` within the bound of one without relay, or it
relays, and comes to that within the bound of one with `MAX_LEN` payload bytes (R145). -/
def EndsOrRelays (l : Nat) (t : State) (m : Nat) (u : State) : Prop :=
  (u.point = .idle ∧ m ≤ t.build.msgReceiveMax l) ∨
    (u.Inv ∧ u.build = t.build ∧ u.point.relaying = true ∧
      m ≤ t.build.msgReceiveMax t.build.maxLen)

theorem Receiving.lt_bound (h : Receiving l c t x) (hl : t.build.maxLen ≤ l) :
    c < t.build.msgReceiveMax l := by
  obtain ⟨hx, hbefore, hb, -⟩ := h
  rw [← hb] at hl ⊢
  exact hx.lt_deadline.trans_le (deadline_of_beforeRelay hbefore hl)

/-- A cycle of a reception ends it, comes to its relay, or goes on. -/
theorem Receiving.next_cases (h : Receiving l c t x) (hdrain : t.drainOversize = true → 255 ≤ l)
    (hl : t.build.maxLen ≤ l) (hr : x.now.rst = false)
    (hwrite : (x.now.hSel && x.now.hWe) = false) (hstep : step x = .next y) :
    EndsOrRelays l t (c + 1) y ∨ Receiving l (c + 1) t y := by
  by_cases hidle : y.point = .idle
  · exact .inl (.inl ⟨hidle, h.lt_bound hl⟩)
  · by_cases hrelay : y.point.relaying = true
    · obtain ⟨hc, hpoint⟩ := cycle_of_running h.underway.running hr hstep
      obtain ⟨hinv, hbuild⟩ := stepKeepsTheInvariant x y h.underway.inv hstep
      have hlt := h.underway.lt_deadline
      rw [hc.settle_of_relaying hpoint h.before.2 hrelay, h.build] at hlt
      exact .inl (.inr ⟨hinv, hbuild.trans h.build, hrelay, hlt⟩)
    · exact .inr (h.next hdrain hr hwrite hstep hidle (Bool.eq_false_of_not_eq_true hrelay))

/-- A reception comes to its end, or to a relay. -/
theorem reception_ends_or_relays (ht : Receiving l 0 t t)
    (hdrain : t.drainOversize = true → 255 ≤ l) (hl : t.build.maxLen ≤ l)
    (henv : ∀ i ∈ t.inputs.take (t.build.msgReceiveMax l),
      i.rst = false ∧ (i.hSel && i.hWe) = false) :
    ∃ m u, run m t = .next u ∧ EndsOrRelays l t m u := by
  obtain ⟨m, u, hu, hgoal⟩ := reaches_goal (P := fun c x => Receiving l c t x) (n := 0)
    (goal := EndsOrRelays l t)
    (env := fun i => i.rst = false ∧ (i.hSel && i.hWe) = false) ⟨rfl, rfl⟩ (fun _ h => h.1)
    (fun c x h => ⟨h.underway.running, h.lt_bound hl⟩)
    (fun c x y h henv hstep => h.next_cases hdrain hl henv.1 henv.2 hstep) ht henv
  exact ⟨m, u, hu, by rwa [Nat.zero_add] at hgoal⟩

/-- A reception that has just started. -/
theorem receiving_of_starts {s : State} (hs : s.Inv) (hstarts : s.starts .msgReceive)
    (ht : t = startOf .msgReceive s s.edge) : Receiving l 0 t t where
  underway :=
    have hp : t.point = .receive (.length firstWait) := by rw [ht]; rfl
    { inv := (stepKeepsTheInvariant s t hs (ht ▸ step_of_starts hstarts)).1
      running := by rw [hp]; nofun
      fits := ⟨fun _ h => (nomatch hp.symm.trans h), fun _ _ h => (nomatch hp.symm.trans h)⟩
      time := Nat.zero_le _ }
  before := by rw [ht]; exact ⟨rfl, rfl⟩
  build := rfl
  drainOversize := rfl

theorem relaying_cases {p : Point} (h : p.relaying = true) :
    p = .receive .relayBefore ∨ (∃ m, p = .receive (.relay m)) ∨ p = .receive .relayAfter := by
  cases p with
  | receive q =>
    cases q with
    | relayBefore => exact .inl rfl
    | relay m => exact .inr (.inl ⟨m, rfl⟩)
    | relayAfter => exact .inr (.inr rfl)
    | _ => cases h
  | _ => cases h

/-- A relay ends within the bound of its reception, if it has begun within the bound of one without.
-/
theorem relay_ends {u : State} {c : Nat} (hu : u.Inv) (hrelay : u.point.relaying = true)
    (hc : c ≤ u.build.msgReceiveMax u.build.maxLen) (hreset : u.noReset (u.build.relayMax - c)) :
    ∃ m v, c + m ≤ u.build.relayMax ∧ run m u = .next v ∧ v.point = .idle := by
  have hspent : u.build.msgReceiveMax u.build.maxLen ≤ spent u.build 0 0 u.point := by
    rcases relaying_cases hrelay with hp | ⟨m, hp⟩ | hp <;> rw [hp]
    · exact le_rfl
    · exact Nat.le_add_right_of_le (Nat.le_add_right _ _)
    · exact Nat.le_add_right_of_le (Nat.le_add_right _ _)
  have running {x : State} (h : x.point.relaying = true) : x.point ≠ .idle := by
    rcases relaying_cases h with hp | ⟨m, hp⟩ | hp <;> rw [hp] <;> nofun
  exact ends_within (K := fun x => x.build = u.build ∧ x.point.relaying = true) hu (running hrelay)
    ⟨rfl, hrelay⟩ (hc.trans (Nat.le_add_right_of_le hspent))
    (fun x y ⟨hb, hx⟩ hne hr hstep hy => by
      obtain ⟨hc, hpoint⟩ := cycle_of_running hne hr hstep
      exact ⟨(step_environment hr hstep).1.trans hb,
        (hc.idle_of_relaying hpoint hx).resolve_left hy⟩)
    (fun x _ ⟨_, hx⟩ => by
      rcases relaying_cases hx with hp | ⟨m, hp⟩ | hp <;>
        exact ⟨fun _ h => (nomatch hp.symm.trans h), fun _ _ h => (nomatch hp.symm.trans h)⟩)
    (fun x ⟨hb, hx⟩ => by
      rcases relaying_cases hx with hp | ⟨m, hp⟩ | hp <;> rw [hp, hb] <;> exact le_rfl) hreset

end Receiving

/-- What R145 says of a reception that starts in `s` and stands in `t` a cycle later. -/
theorem reception_within_bounds {s t : State} {l : Nat} (hs : s.Inv)
    (hstarts : s.starts .msgReceive)
    (hl : l = if s.drainOversize = true then 255 else s.build.maxLen)
    (ht : t = startOf .msgReceive s s.edge)
    (hreset : t.noReset (max (s.build.msgReceiveMax l) s.build.relayMax))
    (hwrite : (s.now.hSel && s.now.hWe) = false)
    (hwrites : ∀ i ∈ t.inputs.take (max (s.build.msgReceiveMax l) s.build.relayMax),
      (i.hSel && i.hWe) = false) :
    (∃ m u, m ≤ s.build.msgReceiveMax l ∧ run m t = .next u ∧ u.point = .idle) ∨
      ((∃ m u, m ≤ s.build.msgReceiveMax s.build.maxLen ∧ run m t = .next u ∧
          u.point.relaying = true) ∧
        ∃ m u, m ≤ s.build.relayMax ∧ run m t = .next u ∧ u.point = .idle) := by
  obtain ⟨-, hbuild⟩ := stepKeepsTheInvariant s t hs (ht ▸ step_of_starts hstarts)
  have hconfig : t.drainOversize = s.drainOversize := by
    have hedge : t.config = s.edge.config := by rw [ht]; rfl
    rw [State.drainOversize, hedge, (edge_of_no_write hwrite).2]
    rfl
  have hmax := maxLen_le hs.build_ok
  have hfits : s.build.maxLen ≤ l := by rw [hl]; split <;> omega
  obtain ⟨m, u, hu, hend⟩ := reception_ends_or_relays (receiving_of_starts hs hstarts ht)
    (fun hd => by rw [hl, if_pos (hconfig ▸ hd)]) (hbuild ▸ hfits) fun i hi =>
      have hi' := List.take_subset_take_left _ (hbuild ▸ le_max_left _ _) hi
      ⟨hreset i hi', hwrites i hi'⟩
  rw [EndsOrRelays, hbuild] at hend
  rcases hend with ⟨hidle, hm⟩ | ⟨huinv, hub, hrelay, hm⟩
  · exact .inl ⟨m, u, hm, hu, hidle⟩
  · have hle : m ≤ s.build.relayMax := hm.trans (msgReceiveMax_le_relayMax _)
    have hrest : u.noReset (u.build.relayMax - m) :=
      noReset_of_run (noReset_mono hreset (by rw [hub]; omega)) hu
    obtain ⟨k, v, hk, hv, hidle⟩ := relay_ends huinv hrelay (by rw [hub]; exact hm) hrest
    rw [hub] at hk
    exact .inr ⟨⟨m, u, hm, hu, hrelay⟩, m + k, v, hk, (run_add hu).trans hv, hidle⟩

/-- Settles O52: NOP and LINES_IDLE end in the cycle in which they start, and the others within the
time their statements can take. -/
theorem operationsKeepTheirBounds : Obligations.OperationsKeepTheirBounds := by
  intro s i n hs hstarts hn hreset hwrites
  refine ⟨_, exec_of_starts hstarts, ?_⟩
  obtain ⟨hinv, hbuild⟩ := stepKeepsTheInvariant s _ hs (step_of_starts hstarts)
  have hrest := noReset_of_starts hstarts hreset
  have command (hi : i ≠ .msgReceive) (hp : (startOf i s s.edge).point.instr = some i)
      (hd : ∀ p, p.instr = some i →
        deadline s.build 0 ((startOf i s s.edge).frameCount .tx) p ≤ n) :=
    command_ends hinv hp hi (by rw [hbuild]; exact hd) hrest
  cases i with
  | nop | linesIdle => exact ⟨⟨0, _, Nat.zero_le n, rfl, rfl⟩, nofun⟩
  | phyStart | phyStop | sendByte | recvByte =>
    exact ⟨command nofun rfl fun p hp => by cases p <;> cases hp; exact hn.ge, nofun⟩
  | sendMsg =>
    have hcount := (sendsFrom_of_starts hstarts (exec_of_starts hstarts)).1.frameCount .tx
    refine ⟨command nofun rfl fun p hp => ?_, nofun⟩
    rw [hcount]
    cases p <;> cases hp
    exact hn.ge
  | msgReceive =>
    obtain ⟨hwrite, hwrites'⟩ := env_succ (env := fun i => (i.hSel && i.hWe) = false) rfl
      (by rwa [Nat.add_comm] at hwrites)
    obtain ⟨-, -, -, -, -, hin⟩ := step_environment hstarts.1 (step_of_starts hstarts)
    rw [← hin] at hwrites'
    subst hn
    have hends := reception_within_bounds hs hstarts rfl rfl hrest hwrite hwrites'
    refine ⟨?_, fun _ => hends⟩
    rcases hends with ⟨m, u, hm, hu, hidle⟩ | ⟨-, m, u, hm, hu, hidle⟩
    · exact ⟨m, u, hm.trans (le_max_left _ _), hu, hidle⟩
    · exact ⟨m, u, hm.trans (le_max_right _ _), hu, hidle⟩

end Sys2Proof.Proofs

/-! ## Reset (R167, R169)

Only `step` looks at `rst`, before the fetch and before the clock edge: what the block was doing and
the host's access of the cycle are not read. -/

namespace Sys2Proof.Proofs
open Sys2Proof.Machine

/-- The branch of `step` that reset takes, whatever the fetch gives. -/
theorem step_of_reset {s : State} (hrst : s.now.rst = true) : step s = .next s.resetEdge := by
  rw [step, if_pos hrst]

/-- Settles O7: the edge under reset reads the build and the coming inputs only. -/
theorem resetAbandonsEverything : Obligations.ResetAbandonsEverything := by
  intro s hrst
  rw [step_of_reset hrst, State.resetEdge]

end Sys2Proof.Proofs
